-- ==== Sys2Proof/Word.lean ====
section
/-! DEFINITION. The values the block's commands carry: bytes, byte strings and fixed-width byte strings
(00_scope.md R7, 20_memory.md R41, R42, 30_encoding.md R65). -/

namespace Sys2Proof

/-- An 8-bit byte (00_scope.md R7). -/
abbrev Byte := BitVec 8

/-- A finite sequence of bytes, index 0 first; its length is part of the value (20_memory.md R41). -/
abbrev Bytes := List Byte

/-- A character string: a byte string of ASCII codes, one byte per character (20_memory.md R42). -/
abbrev Str := Bytes

/-- A byte string carried at exactly `n` bytes, which cannot have another length (30_encoding.md R65). -/
abbrev BytesN (n : Nat) := { b : Bytes // b.length = n }

/-- `Bytes6` of 30_encoding.md R65. -/
abbrev Bytes6 := BytesN 6

/-- `Bytes16` of 30_encoding.md R65. -/
abbrev Bytes16 := BytesN 16

/-- `n` zero bytes. -/
def BytesN.zeros (n : Nat) : BytesN n := ⟨List.replicate n 0, List.length_replicate⟩

end Sys2Proof
end

