-- ==== Sys2Proof/Config.lean ====
section
/-! DEFINITION. The implementation parameters of 00_scope.md R5 and the AES port's functions (60_exceptions.md R212). -/

namespace Sys2Proof.Config

/-- The save-time rule of 43_device.md R176: `SAVE_BUMP_RULE` (92_eei_decisions.md D11). -/
inductive SaveBumpRule
  /-- `flag`: the bump is the `generated` register. -/
  | flag
  /-- `counter_gt_zero`: the bump is 1 iff `session_counter > 0`. -/
  | counterGtZero
  deriving DecidableEq, Repr

/-- The parameters that are tunable or OPEN in 00_scope.md R5. Each default is the one R5 gives. -/
structure Params where
  /-- `TS_MARGIN`, in ticks. -/
  tsMargin : Nat := 2 ^ 20
  /-- `PID_MAX_CHARS`; `none` is no limit. -/
  pidMaxChars : Option Nat := none
  /-- `MAX_OPERAND_BYTES`; `none` is unbounded. -/
  maxOperandBytes : Option Nat := none
  /-- `SAVE_BUMP_RULE`. -/
  saveBumpRule : SaveBumpRule := .flag
  deriving DecidableEq, Repr

/-- The parameters with every default of R5. -/
def defaults : Params := {}

/-- `PRIVATE_ID_BYTES` (R5). -/
abbrev privateIdBytes : Nat := 6
/-- `AES_KEY_BYTES` (R5). -/
abbrev aesKeyBytes : Nat := 16
/-- `CIPHERTEXT_CHARS` (R5). -/
abbrev ciphertextChars : Nat := 32
/-- `USAGE_MAX` (R5). -/
abbrev usageMax : Nat := 0x7FFF
/-- The largest timestamp of `TIMESTAMP_BITS` = 24 bits (R5). -/
abbrev timestampMax : Nat := 0xFFFFFF
/-- The largest emitted session value, `SESSION_FIELD_BITS` = 8 bits (R5). -/
abbrev sessionMax : Nat := 0xFF
/-- `CRC_POLY` (R5). -/
abbrev crcPoly : BitVec 16 := 0x8408
/-- `CRC_INIT` (R5). -/
abbrev crcInit : BitVec 16 := 0xFFFF
/-- `CRC_RESIDUAL` (R5, 41_crc16.md R122). -/
abbrev crcResidual : BitVec 16 := 0xF0B8

/-- The AES port (60_exceptions.md R212, 92_eei_decisions.md D31): for every key a permutation of the 16-byte
blocks, and nothing else is known of it. It has no body, so a claim about it holds for every such cipher. -/
opaque aesPermutation : Bytes16 → Equiv.Perm Bytes16

end Sys2Proof.Config
end

