-- ==== Sys2Proof/Syntax.lean ====
section
/-! DEFINITION. The commands of the block, one constructor per row of the opcode map (30_encoding.md R62), each with
the operand bundle R65 fixes for it; the bundle's lanes as the transaction carries them; the port answers the
environment gives during one command (60_exceptions.md R210, R211). -/

namespace Sys2Proof

/-- A command with its operands (30_encoding.md R62, R65). An operand that is present iff a presence bit is 1 is an
`Option`: `some` iff the bit is 1 (R61, R66). -/
inductive Instr
  /-- `MHX_ENC` (40_modhex.md R101). -/
  | mhxEnc (data : Bytes)
  /-- `MHX_DEC` (40_modhex.md R102). -/
  | mhxDec (text : Str)
  /-- `MHX_VALID` (40_modhex.md R103). -/
  | mhxValid (text : Str)
  /-- `CRC16` (41_crc16.md R121). -/
  | crc16 (data : Bytes)
  /-- `CRC_VERIFY` (41_crc16.md R123). -/
  | crcVerify (data : Bytes)
  /-- `CRC_FIELD` (41_crc16.md R125). -/
  | crcField (data : Bytes)
  /-- `TOK_PACK` (42_token.md R141); `random` is present iff `RNDP = 1`. -/
  | tokPack (privateId : Bytes6) (usageCounter : BitVec 16) (timestamp : BitVec 24) (sessionCounter : BitVec 8)
      (random : Option (BitVec 16))
  /-- `TOK_UNPACK` (42_token.md R143). -/
  | tokUnpack (plaintext : Bytes16)
  /-- `TOK_ENCRYPT` (42_token.md R144). -/
  | tokEncrypt (plaintext : Bytes16) (aesKey : Bytes16)
  /-- `TOK_FORMAT` (42_token.md R145). -/
  | tokFormat (publicId : Str) (ciphertext : Bytes16)
  /-- `TOK_PARSE` (42_token.md R146). -/
  | tokParse (aesKey : Bytes16) (otp : Str)
  /-- `DEV_CREATE` (43_device.md R170); `timestamp` is present iff `TSP = 1`. -/
  | devCreate (publicId : Str) (privateId : Bytes) (aesKey : Bytes) (usageCounter : BitVec 32)
      (timestamp : Option (BitVec 32)) (sessionCounter : BitVec 32)
  /-- `DEV_GENERATE` (43_device.md R173); `random` is present iff `RNDP = 1`. -/
  | devGenerate (random : Option (BitVec 16))
  /-- `DEV_SAVE` (43_device.md R175). -/
  | devSave
  deriving DecidableEq, Repr

/-- The operand bundle of a transaction (30_encoding.md R60, R65): one lane per operand name and type of R65. A command
reads the lanes R65 names for it and no other; a lane's type carries its width. The four `create…` integer and byte
lanes are `DEV_CREATE`'s, whose types differ from the codec commands' of the same name. Log entry 3. -/
structure Operands where
  /-- `data: Bytes` of `MHX_ENC`, `CRC16`, `CRC_VERIFY`, `CRC_FIELD`. -/
  data : Bytes := []
  /-- `text: Str` of `MHX_DEC`, `MHX_VALID`. -/
  text : Str := []
  /-- `public_id: Str` of `TOK_FORMAT`, `DEV_CREATE`. -/
  publicId : Str := []
  /-- `otp: Str` of `TOK_PARSE`. -/
  otp : Str := []
  /-- `private_id: Bytes6` of `TOK_PACK`. -/
  privateId : Bytes6 := BytesN.zeros 6
  /-- `aes_key: Bytes16` of `TOK_ENCRYPT`, `TOK_PARSE`. -/
  aesKey : Bytes16 := BytesN.zeros 16
  /-- `plaintext: Bytes16` of `TOK_UNPACK`, `TOK_ENCRYPT`. -/
  plaintext : Bytes16 := BytesN.zeros 16
  /-- `ciphertext: Bytes16` of `TOK_FORMAT`. -/
  ciphertext : Bytes16 := BytesN.zeros 16
  /-- `usage_counter: u16` of `TOK_PACK`. -/
  usageCounter : BitVec 16 := 0
  /-- `timestamp: u24` of `TOK_PACK`. -/
  timestamp : BitVec 24 := 0
  /-- `session_counter: u8` of `TOK_PACK`. -/
  sessionCounter : BitVec 8 := 0
  /-- `random: u16` of `TOK_PACK`, `DEV_GENERATE`; read iff `RNDP = 1`. -/
  random : BitVec 16 := 0
  /-- `private_id: Bytes` of `DEV_CREATE`. -/
  createPrivateId : Bytes := []
  /-- `aes_key: Bytes` of `DEV_CREATE`. -/
  createAesKey : Bytes := []
  /-- `usage_counter: u32` of `DEV_CREATE`. -/
  createUsageCounter : BitVec 32 := 0
  /-- `timestamp: u32` of `DEV_CREATE`; read iff `TSP = 1`. -/
  createTimestamp : BitVec 32 := 0
  /-- `session_counter: u32` of `DEV_CREATE`. -/
  createSessionCounter : BitVec 32 := 0
  deriving DecidableEq, Repr

/-- A bundle of empty strings and zeros. -/
def Operands.zero : Operands := {}

/-- An instant of the clock port (10_state.md R19): a label the device stores and hands back and never computes with.
Log entry 5. -/
structure Instant where
  /-- Which instant it is. No meaning but identity. -/
  label : Nat
  deriving DecidableEq, Repr

/-- The answers the environment's ports give during one command. A command makes at most one call of each of the three
kinds (60_exceptions.md R210, R211), so one record answers a whole command. They are FREE inputs: nothing constrains
them (log entry 4). -/
structure PortAnswers where
  /-- The answer of `CLOCK_NOW()`: any instant (R210). -/
  now : Instant
  /-- The answer of `CLOCK_ELAPSED8(p)`: any `Int` (R210). -/
  elapsed8 : Int
  /-- The raw entropy of the random port; `RANDOM_BITS` and `RANDOM_RANGE` reduce it to their range (R211). -/
  random : Nat
  deriving DecidableEq, Repr

/-- All-zero answers, for a state in which no command has been taken yet. -/
def PortAnswers.zero : PortAnswers := ⟨⟨0⟩, 0, 0⟩

/-- A command transaction as the host issues it: the command word and the operand bundle (30_encoding.md R60), and what
the ports will answer during it (60_exceptions.md R210, R211). -/
structure Transaction where
  /-- The 16-bit command word (30_encoding.md R61). -/
  word : BitVec 16
  /-- The operand bundle (30_encoding.md R65). -/
  operands : Operands
  /-- What the environment's ports answer during this command. -/
  answers : PortAnswers
  deriving DecidableEq, Repr

/-- What the host can do to the block, between commands (60_exceptions.md R208, 70_reset_and_hazards.md R238). -/
inductive HostEvent
  /-- Issue one command transaction (30_encoding.md R60). -/
  | command (t : Transaction)
  /-- Power-on reset, the block's one hardware reset (70_reset_and_hazards.md R230). Log entry 13. -/
  | powerOn
  deriving DecidableEq, Repr

end Sys2Proof
end

