-- ==== Sys2Proof/Machine/State.lean ====
section
/-! DEFINITION. The state of the block (10_state.md R10), what it answers (30_encoding.md R60, R65), the reasons a step
can stop, and the state after power-on reset (R24, 70_reset_and_hazards.md R230). -/

namespace Sys2Proof.Machine

/-- `fsm_state` (10_state.md R11). The reserved value 3 is written by no command and is not representable here
(log entry 10). -/
inductive FsmState
  /-- No identity is loaded. -/
  | uninit
  /-- An identity and counters are loaded. -/
  | created
  /-- The instance was saved. -/
  | persisted
  deriving DecidableEq, Repr

/-- The eight registers that hold no value until `DEV_CREATE` writes them all (10_state.md R10, R24; 43_device.md R170). -/
structure DeviceRegs where
  /-- `public_id` (R12). -/
  publicId : Str
  /-- `private_id` (R13). -/
  privateId : Bytes6
  /-- `aes_key` (R14). -/
  aesKey : Bytes16
  /-- `usage_counter` (R15). -/
  usageCounter : BitVec 16
  /-- `ts_seed` (R16). -/
  tsSeed : BitVec 24
  /-- `session_counter`, 9 bits (R17, 90_conflicts.md C2). -/
  sessionCounter : BitVec 9
  /-- `generated` (R18). -/
  generated : Bool
  /-- `poweron` (R19). -/
  poweron : Instant
  deriving DecidableEq, Repr

/-- The five fields a plaintext carries beside its checksum (30_encoding.md R68, 42_token.md R142). -/
structure TokenFields where
  /-- `private_id`. -/
  privateId : Bytes6
  /-- `usage_counter`. -/
  usageCounter : BitVec 16
  /-- `timestamp`. -/
  timestamp : BitVec 24
  /-- `session_counter`. -/
  sessionCounter : BitVec 8
  /-- `random`. -/
  random : BitVec 16
  deriving DecidableEq, Repr

/-- The persisted record (30_encoding.md R70). -/
structure Record where
  /-- `public_id`. -/
  publicId : Str
  /-- `private_id`. -/
  privateId : Bytes6
  /-- `aes_key`. -/
  aesKey : Bytes16
  /-- `usage_counter`. -/
  usageCounter : BitVec 16
  deriving DecidableEq, Repr

/-- The result bundle of a command (30_encoding.md R65). -/
inductive Results
  /-- The empty bundle: `DEV_CREATE`, and every command that raises an error (60_exceptions.md R201). -/
  | empty
  /-- `text` of `MHX_ENC`. -/
  | text (text : Str)
  /-- `data` of `MHX_DEC`. -/
  | data (data : Bytes)
  /-- `valid` of `MHX_VALID`. -/
  | valid (valid : Bool)
  /-- `crc` of `CRC16`. -/
  | crc (crc : BitVec 16)
  /-- `ok` of `CRC_VERIFY`. -/
  | ok (ok : Bool)
  /-- `field` of `CRC_FIELD`. -/
  | field (field : Bytes)
  /-- `plaintext` of `TOK_PACK`. -/
  | plaintext (plaintext : Bytes16)
  /-- The five fields of `TOK_UNPACK`. -/
  | fields (fields : TokenFields)
  /-- `ciphertext` of `TOK_ENCRYPT`. -/
  | ciphertext (ciphertext : Bytes16)
  /-- `otp` of `TOK_FORMAT`, `DEV_GENERATE`. -/
  | otp (otp : Str)
  /-- `public_id` and the five fields of `TOK_PARSE`. -/
  | parsed (publicId : Str) (fields : TokenFields)
  /-- `record` of `DEV_SAVE`. -/
  | record (record : Record)
  deriving DecidableEq, Repr

/-- A call of an external port (60_exceptions.md R210 to R212), as the device presents it. -/
inductive PortCall
  /-- `CLOCK_NOW()`. -/
  | clockNow
  /-- `CLOCK_ELAPSED8(since)`. -/
  | clockElapsed8 (since : Instant)
  /-- `RANDOM_BITS(bits)`. -/
  | randomBits (bits : Nat)
  /-- `RANDOM_RANGE(lo, hi)`. -/
  | randomRange (lo hi : Nat)
  /-- `AES_ENC(key, block)`. -/
  | aesEnc (key block : Bytes16)
  /-- `AES_DEC(key, block)`. -/
  | aesDec (key block : Bytes16)
  deriving DecidableEq, Repr

/-- What the host gets back from one transaction: the status word and the result bundle (30_encoding.md R60); beside
them the port calls the command made, in order (log entry 12). -/
structure Response where
  /-- The status word (30_encoding.md R71). -/
  status : BitVec 16
  /-- The result bundle (30_encoding.md R65). -/
  results : Results
  /-- The port calls of the command, first to last. -/
  calls : List PortCall
  deriving DecidableEq, Repr

/-- The state. The registers are those of 10_state.md R10; the last four fields are the block's boundary: its
parameters, the port answers of the current command, the host's events to come and the responses given. -/
structure State where
  /-- `fsm_state` (R11). -/
  fsmState : FsmState
  /-- The eight registers that `DEV_CREATE` writes; `none` is "no value" (R24, log entry 1). -/
  dev : Option DeviceRegs
  /-- `status` (R20). -/
  status : BitVec 16
  /-- The parameters of 00_scope.md R5 (log entry 7). -/
  params : Config.Params
  /-- The port answers of the current command (log entry 4). -/
  ports : PortAnswers
  /-- The host's events in issue order, the next one first (20_memory.md R47, log entry 2). -/
  pending : List HostEvent
  /-- The responses delivered, the newest first (log entry 2). -/
  responses : List Response
  deriving DecidableEq, Repr

/-- Why the machine stops with a fault: never. The block has no traps, an error is a status code (60_exceptions.md R208),
and no meaning reads a register that holds no value, the one fault the spec names (10_state.md R24, log entry 1). -/
inductive Fault
  deriving DecidableEq, Repr

/-- Why the model gives a transaction no step. -/
inductive Refusal
  /-- An instruction of the opcode table without a meaning in the model: no arm of exec answers it. Safe. -/
  | notModelled (mnemonic : String)
  /-- A byte-string operand is longer than `MAX_OPERAND_BYTES` (30_encoding.md R78: "it gives it no step and no
  status"). Raised by `step`, never under the default. Safe. -/
  | operandTooLong
  deriving DecidableEq, Repr

/-- The state right after power-on reset (10_state.md R24, 70_reset_and_hazards.md R230), with the default parameters
of 00_scope.md R5 and no host event yet: "after reset the block waits for the host's first command". -/
def State.reset : State where
  fsmState := .uninit
  dev := none
  status := 0x0000
  params := Config.defaults
  ports := PortAnswers.zero
  pending := []
  responses := []

end Sys2Proof.Machine
end

