-- ==== Sys2Proof/Machine/Flags.lean ====
section
/-! DEFINITION. The block has no flags register (10_state.md R22); its one condition indicator is the status word, whose
codes are computed here (30_encoding.md R71 to R74), and the code of `fsm_state` (10_state.md R11). -/

namespace Sys2Proof.Machine

/-- The value of `fsm_state` (10_state.md R11). -/
def fsmCode : FsmState → BitVec 2
  | .uninit => 0
  | .created => 1
  | .persisted => 2

/-- The operand or field a ValidationError names (30_encoding.md R73). -/
inductive ErrorField
  | publicId | privateId | aesKey | usageCounter | timestamp | sessionCounter | text | otp
  deriving DecidableEq, Repr

/-- Why that field failed (30_encoding.md R74). -/
inductive ErrorReason
  | oddLength | alphabet | range | length
  deriving DecidableEq, Repr

/-- The five error classes (30_encoding.md R72, 60_exceptions.md R200). -/
inductive CommandError
  /-- ValidationError, naming a field and a reason. -/
  | validation (field : ErrorField) (reason : ErrorReason)
  /-- ChecksumError. -/
  | checksum
  /-- OverflowError. -/
  | overflow
  /-- StateError. -/
  | state
  /-- IllegalCommand. -/
  | illegalCommand
  deriving DecidableEq, Repr

/-- `FIELD` codes (30_encoding.md R73). -/
def fieldCode : ErrorField → BitVec 4
  | .publicId => 1
  | .privateId => 2
  | .aesKey => 3
  | .usageCounter => 4
  | .timestamp => 5
  | .sessionCounter => 6
  | .text => 7
  | .otp => 8

/-- `REASON` codes (30_encoding.md R74). -/
def reasonCode : ErrorReason → BitVec 4
  | .oddLength => 1
  | .alphabet => 2
  | .range => 3
  | .length => 4

/-- A status word: `CLASS` in 3:0, `FIELD` in 7:4, `REASON` in 11:8, 15:12 zero (30_encoding.md R71). -/
def statusWord (reason field cls : BitVec 4) : BitVec 16 :=
  (0 : BitVec 4) ++ reason ++ field ++ cls

/-- The status word of success: class `OK` (30_encoding.md R72). -/
def statusOk : BitVec 16 := statusWord 0 0 0

/-- The status word of an error: its class, and for a ValidationError its field and reason (30_encoding.md R71, R72). -/
def errorStatus : CommandError → BitVec 16
  | .validation field reason => statusWord (reasonCode reason) (fieldCode field) 1
  | .checksum => statusWord 0 0 2
  | .overflow => statusWord 0 0 3
  | .state => statusWord 0 0 4
  | .illegalCommand => statusWord 0 0 5

/-- Every status value the block can produce (30_encoding.md R74, second table). -/
def producibleStatuses : List (BitVec 16) :=
  [0x0000, 0x0171, 0x0271, 0x0281, 0x0481, 0x0111, 0x0211, 0x0411, 0x0421, 0x0431, 0x0341, 0x0351, 0x0361,
   0x0002, 0x0003, 0x0004, 0x0005]

end Sys2Proof.Machine
end

