-- ==== Sys2Proof/WellFormed.lean ====
section
/-! DEFINITION. Which commands the transport can carry (30_encoding.md R78). Every other limit of R65 is in the types:
a fixed-width operand "cannot have the wrong length or an out-of-width value". -/

namespace Sys2Proof

/-- A byte string of this length fits under `MAX_OPERAND_BYTES` (30_encoding.md R78). -/
def Config.Params.fits (p : Config.Params) (length : Nat) : Bool :=
  p.maxOperandBytes.all fun limit => decide (length ≤ limit)

/-- The lengths of the byte strings a command carries with their length (30_encoding.md R60, R65). Fixed-width
operands are not among them (log entry 9). -/
def Instr.byteStringLengths : Instr → List Nat
  | .mhxEnc data => [data.length]
  | .mhxDec text => [text.length]
  | .mhxValid text => [text.length]
  | .crc16 data => [data.length]
  | .crcVerify data => [data.length]
  | .crcField data => [data.length]
  | .tokPack _ _ _ _ _ => []
  | .tokUnpack _ => []
  | .tokEncrypt _ _ => []
  | .tokFormat publicId _ => [publicId.length]
  | .tokParse _ otp => [otp.length]
  | .devCreate publicId privateId aesKey _ _ _ => [publicId.length, privateId.length, aesKey.length]
  | .devGenerate _ => []
  | .devSave => []

/-- A command is well formed iff the transport can carry each of its byte strings (30_encoding.md R78). -/
def Instr.wf (p : Config.Params) (i : Instr) : Bool :=
  i.byteStringLengths.all p.fits

end Sys2Proof
end

