-- ==== Sys2Proof/Decode.lean ====
section
/-! DEFINITION. The command word (30_encoding.md R61 to R63, R77): its decoder, total on every word and bundle and
rejecting by name, and after it the encoder. -/

namespace Sys2Proof

/-- `OPC`, bits 7:0 (30_encoding.md R61). -/
def opcOf (w : BitVec 16) : BitVec 8 := w.extractLsb' 0 8

/-- `TSP`, bit 8: a `timestamp` operand is present (30_encoding.md R61). -/
def tspOf (w : BitVec 16) : Bool := w.getLsbD 8

/-- `RNDP`, bit 9: a `random` operand is present (30_encoding.md R61). -/
def rndpOf (w : BitVec 16) : Bool := w.getLsbD 9

/-- `RSVD`, bits 15:10, which must be zero (30_encoding.md R61). -/
def rsvdOf (w : BitVec 16) : BitVec 6 := w.extractLsb' 10 6

/-- Why a command word is illegal: the three cases of 30_encoding.md R63. -/
inductive IllegalWord
  /-- Some `RSVD` bit is 1. -/
  | reservedBits
  /-- `OPC` is not in the opcode map. -/
  | unknownOpcode
  /-- A presence bit is 1 on a row that does not allow it. -/
  | presenceNotAllowed
  deriving DecidableEq, Repr

/-- The opcode map (30_encoding.md R62). -/
inductive Opcode
  | mhxEnc | mhxDec | mhxValid
  | crc16 | crcVerify | crcField
  | tokPack | tokUnpack | tokEncrypt | tokFormat | tokParse
  | devCreate | devGenerate | devSave
  deriving DecidableEq, Repr

/-- The `OPC` column of 30_encoding.md R62. -/
def Opcode.opc : Opcode → BitVec 8
  | .mhxEnc => 0x10
  | .mhxDec => 0x11
  | .mhxValid => 0x12
  | .crc16 => 0x20
  | .crcVerify => 0x21
  | .crcField => 0x22
  | .tokPack => 0x30
  | .tokUnpack => 0x31
  | .tokEncrypt => 0x32
  | .tokFormat => 0x33
  | .tokParse => 0x34
  | .devCreate => 0x40
  | .devGenerate => 0x41
  | .devSave => 0x42

/-- The fourteen rows (30_encoding.md R62). -/
def allOpcodes : List Opcode :=
  [.mhxEnc, .mhxDec, .mhxValid, .crc16, .crcVerify, .crcField, .tokPack, .tokUnpack, .tokEncrypt, .tokFormat, .tokParse,
   .devCreate, .devGenerate, .devSave]

/-- The row of an `OPC` value, if there is one (30_encoding.md R62). -/
def opcodeOf (opc : BitVec 8) : Option Opcode := allOpcodes.find? fun op => op.opc == opc

/-- `TSP` is legal only with `DEV_CREATE` (30_encoding.md R61, R62). -/
def Opcode.allowsTsp (op : Opcode) : Bool := decide (op = .devCreate)

/-- `RNDP` is legal only with `TOK_PACK` and `DEV_GENERATE` (30_encoding.md R61, R62). -/
def Opcode.allowsRndp (op : Opcode) : Bool := decide (op = .tokPack ∨ op = .devGenerate)

/-- The row a command word selects, or why it selects none (30_encoding.md R62, R63). -/
def decodeWord (w : BitVec 16) : Except IllegalWord Opcode :=
  if rsvdOf w ≠ 0 then .error .reservedBits
  else
    match opcodeOf (opcOf w) with
    | none => .error .unknownOpcode
    | some op =>
      if (tspOf w && !op.allowsTsp) || (rndpOf w && !op.allowsRndp) then .error .presenceNotAllowed
      else .ok op

/-- The command a row stands for, with the lanes R65 names for it; the presence bits say whether an optional operand is
there (30_encoding.md R61, R65, R66). -/
def commandOf (op : Opcode) (tsp rndp : Bool) (o : Operands) : Instr :=
  match op with
  | .mhxEnc => .mhxEnc o.data
  | .mhxDec => .mhxDec o.text
  | .mhxValid => .mhxValid o.text
  | .crc16 => .crc16 o.data
  | .crcVerify => .crcVerify o.data
  | .crcField => .crcField o.data
  | .tokPack =>
    .tokPack o.privateId o.usageCounter o.timestamp o.sessionCounter (if rndp then some o.random else none)
  | .tokUnpack => .tokUnpack o.plaintext
  | .tokEncrypt => .tokEncrypt o.plaintext o.aesKey
  | .tokFormat => .tokFormat o.publicId o.ciphertext
  | .tokParse => .tokParse o.aesKey o.otp
  | .devCreate =>
    .devCreate o.publicId o.createPrivateId o.createAesKey o.createUsageCounter
      (if tsp then some o.createTimestamp else none) o.createSessionCounter
  | .devGenerate => .devGenerate (if rndp then some o.random else none)
  | .devSave => .devSave

/-- The command a transaction asks for (30_encoding.md R60 to R63). Whether it is legal depends on the word alone. -/
def decode (w : BitVec 16) (o : Operands) : Except IllegalWord Instr :=
  match decodeWord w with
  | .error e => .error e
  | .ok op => .ok (commandOf op (tspOf w) (rndpOf w) o)

/-- The host's reading of a table row: the command of the word `w`, with every operand empty or zero. -/
def decodeTableWord (nbits w : Nat) : Option Instr :=
  if w % 2 ^ nbits < 2 ^ 16 then (decode (BitVec.ofNat 16 (w % 2 ^ nbits)) Operands.zero).toOption
  else none

/-- A command word from its fields, `RSVD` zero (30_encoding.md R61). -/
def commandWord (opc : BitVec 8) (tsp rndp : Bool) : BitVec 16 :=
  (0 : BitVec 6) ++ BitVec.ofBool rndp ++ BitVec.ofBool tsp ++ opc

/-- A command's row of 30_encoding.md R62. -/
def Instr.opcode : Instr → Opcode
  | .mhxEnc _ => .mhxEnc
  | .mhxDec _ => .mhxDec
  | .mhxValid _ => .mhxValid
  | .crc16 _ => .crc16
  | .crcVerify _ => .crcVerify
  | .crcField _ => .crcField
  | .tokPack _ _ _ _ _ => .tokPack
  | .tokUnpack _ => .tokUnpack
  | .tokEncrypt _ _ => .tokEncrypt
  | .tokFormat _ _ => .tokFormat
  | .tokParse _ _ => .tokParse
  | .devCreate _ _ _ _ _ _ => .devCreate
  | .devGenerate _ => .devGenerate
  | .devSave => .devSave

/-- `TSP` of a command: its `timestamp` operand is present (30_encoding.md R61, R66). -/
def Instr.tsp : Instr → Bool
  | .devCreate _ _ _ _ timestamp _ => timestamp.isSome
  | _ => false

/-- `RNDP` of a command: its `random` operand is present (30_encoding.md R61, R66). -/
def Instr.rndp : Instr → Bool
  | .tokPack _ _ _ _ random => random.isSome
  | .devGenerate random => random.isSome
  | _ => false

/-- The command word of a command (30_encoding.md R61, R62). -/
def encodeWord (i : Instr) : BitVec 16 := commandWord i.opcode.opc i.tsp i.rndp

/-- The operand bundle of a command (30_encoding.md R65): the lanes it names, every other lane empty or zero. -/
def encodeOperands (i : Instr) : Operands :=
  match i with
  | .mhxEnc data => { data := data }
  | .mhxDec text => { text := text }
  | .mhxValid text => { text := text }
  | .crc16 data => { data := data }
  | .crcVerify data => { data := data }
  | .crcField data => { data := data }
  | .tokPack privateId usageCounter timestamp sessionCounter random =>
    { privateId := privateId, usageCounter := usageCounter, timestamp := timestamp, sessionCounter := sessionCounter,
      random := random.getD 0 }
  | .tokUnpack plaintext => { plaintext := plaintext }
  | .tokEncrypt plaintext aesKey => { plaintext := plaintext, aesKey := aesKey }
  | .tokFormat publicId ciphertext => { publicId := publicId, ciphertext := ciphertext }
  | .tokParse aesKey otp => { aesKey := aesKey, otp := otp }
  | .devCreate publicId privateId aesKey usageCounter timestamp sessionCounter =>
    { publicId := publicId, createPrivateId := privateId, createAesKey := aesKey, createUsageCounter := usageCounter,
      createTimestamp := timestamp.getD 0, createSessionCounter := sessionCounter }
  | .devGenerate random => { random := random.getD 0 }
  | .devSave => {}

/-- The transaction's word and bundle for a command (30_encoding.md R60). -/
def encode (i : Instr) : BitVec 16 × Operands := (encodeWord i, encodeOperands i)

/-- A row's `match` and `mask` over the 16 bits of the command word (30_encoding.md R62). -/
structure TableRow where
  /-- The row. -/
  opcode : Opcode
  /-- The bits the word must have under the mask. -/
  matchBits : BitVec 16
  /-- Which bits the row fixes. -/
  mask : BitVec 16
  deriving DecidableEq, Repr

/-- The `match`/`mask` pairs of 30_encoding.md R62, row by row. -/
def opcodeTable : List TableRow :=
  [⟨.mhxEnc, 0x0010, 0xFFFF⟩, ⟨.mhxDec, 0x0011, 0xFFFF⟩, ⟨.mhxValid, 0x0012, 0xFFFF⟩,
   ⟨.crc16, 0x0020, 0xFFFF⟩, ⟨.crcVerify, 0x0021, 0xFFFF⟩, ⟨.crcField, 0x0022, 0xFFFF⟩,
   ⟨.tokPack, 0x0030, 0xFDFF⟩, ⟨.tokUnpack, 0x0031, 0xFFFF⟩, ⟨.tokEncrypt, 0x0032, 0xFFFF⟩,
   ⟨.tokFormat, 0x0033, 0xFFFF⟩, ⟨.tokParse, 0x0034, 0xFFFF⟩,
   ⟨.devCreate, 0x0040, 0xFEFF⟩, ⟨.devGenerate, 0x0041, 0xFDFF⟩, ⟨.devSave, 0x0042, 0xFFFF⟩]

/-- A word matches a row (30_encoding.md R62). -/
def TableRow.accepts (r : TableRow) (w : BitVec 16) : Bool := w &&& r.mask == r.matchBits

end Sys2Proof
end

