-- ==== Sys2Proof/Machine/Bytes.lean ====
section
/-! DEFINITION. Byte order and slices (00_scope.md R7, 20_memory.md R43). -/

namespace Sys2Proof.Machine

/-- `le_N(v)`: the `n` bytes of `v`, byte 0 = `v[7:0]` (00_scope.md R7, 20_memory.md R43). -/
def leBytes (n : Nat) {w : Nat} (v : BitVec w) : Bytes :=
  (List.range n).map fun i => v.extractLsb' (8 * i) 8

@[simp] theorem leBytes_length (n : Nat) {w : Nat} (v : BitVec w) : (leBytes n v).length = n := by
  simp [leBytes]

/-- `from_le(b)`: the sum over `i` of `b[i] * 256^i` (20_memory.md R43). -/
def fromLe : Bytes → Nat
  | [] => 0
  | b :: rest => b.toNat + 256 * fromLe rest

/-- `b[i..j)`: bytes `i` up to, but not including, `j` (00_scope.md R7). -/
def slice (b : Bytes) (i j : Nat) : Bytes := (b.drop i).take (j - i)

theorem slice_length (b : Bytes) (i j : Nat) (h : j ≤ b.length) : (slice b i j).length = j - i := by
  simp only [slice, List.length_take, List.length_drop]
  omega

/-- A byte string as a fixed-width one, if it has that length. -/
def asBytesN (n : Nat) (b : Bytes) : Option (BytesN n) :=
  if h : b.length = n then some ⟨b, h⟩ else none

end Sys2Proof.Machine
end

