-- ==== Sys2Proof/Machine/Operands.lean ====
section
/-! DEFINITION. The operand bundle at the transport (30_encoding.md R60, R78), the port answers as the rules use them
(60_exceptions.md R210 to R212) and the operands that are either present or drawn (30_encoding.md R66). -/

namespace Sys2Proof.Machine

/-- The transport can carry a bundle: each byte string that travels with its length fits (30_encoding.md R60, R78). -/
def carriable (p : Config.Params) (o : Operands) : Bool :=
  p.fits o.data.length && p.fits o.text.length && p.fits o.publicId.length && p.fits o.otp.length
    && p.fits o.createPrivateId.length && p.fits o.createAesKey.length

/-- `AES_ENC(key, block)` (60_exceptions.md R212). -/
def aesEnc (key block : Bytes16) : Bytes16 := Config.aesPermutation key block

/-- `AES_DEC(key, block)`, the inverse permutation (60_exceptions.md R212). -/
def aesDec (key block : Bytes16) : Bytes16 := (Config.aesPermutation key).symm block

/-- `RANDOM_BITS(16)`: the port's answer, any value of `[0, 2^16)` (60_exceptions.md R211). -/
def randomBits16 (a : PortAnswers) : BitVec 16 := BitVec.ofNat 16 (a.random % 2 ^ 16)

/-- `RANDOM_RANGE(lo, hi)`: the port's answer, any value of `[lo, hi]` (60_exceptions.md R211). -/
def randomRange (lo hi : Nat) (a : PortAnswers) : Nat := lo + a.random % (hi - lo + 1)

/-- The upper end of the seed draw, `2^24 - TS_MARGIN` (43_device.md R172). -/
def seedMax (p : Config.Params) : Nat := 2 ^ 24 - p.tsMargin

/-- The `random` field: the operand if `RNDP = 1`, else `RANDOM_BITS(16)` (30_encoding.md R66). -/
def randomField (random : Option (BitVec 16)) (a : PortAnswers) : BitVec 16 :=
  match random with
  | some r => r
  | none => randomBits16 a

/-- The port call that `randomField` makes: none if the operand is present (60_exceptions.md R211). -/
def randomFieldCalls (random : Option (BitVec 16)) : List PortCall :=
  match random with
  | some _ => []
  | none => [.randomBits 16]

/-- The timestamp seed: `timestamp[23:0]` if `TSP = 1`, else `seed_draw()` (43_device.md R170, R172). -/
def seedOf (p : Config.Params) (timestamp : Option (BitVec 32)) (a : PortAnswers) : BitVec 24 :=
  match timestamp with
  | some t => t.extractLsb' 0 24
  | none => BitVec.ofNat 24 (randomRange 0 (seedMax p) a)

/-- The port call that `seedOf` makes: none if the operand is present (43_device.md R170, R172). -/
def seedCalls (p : Config.Params) (timestamp : Option (BitVec 32)) : List PortCall :=
  match timestamp with
  | some _ => []
  | none => [.randomRange 0 (seedMax p)]

end Sys2Proof.Machine
end

