-- ==== Sys2Proof/Machine/Ops.lean ====
section
/-! DEFINITION. The named operations over the registers and the response: taking a host event, completing a command,
raising an error, power-on reset. The block has no traps and no return from one (60_exceptions.md R208): raising an error
is the one shared operation in their place (R201). It has no memory (20_memory.md R40). -/

namespace Sys2Proof.Machine

/-- Take the first host event: the rest stays pending. -/
def State.dequeue (s : State) (rest : List HostEvent) : State := { s with pending := rest }

/-- Take a transaction: the rest stays pending, and the ports answer as the environment does during it. -/
def State.accept (s : State) (t : Transaction) (rest : List HostEvent) : State :=
  { s with pending := rest, ports := t.answers }

/-- Deliver a response and write the `status` register with its status word (10_state.md R20, 30_encoding.md R60). -/
def State.respond (s : State) (r : Response) : State :=
  { s with status := r.status, responses := r :: s.responses }

/-- Write the eight registers that hold a value from `DEV_CREATE` on. -/
def State.withRegs (s : State) (r : DeviceRegs) : State := { s with dev := some r }

/-- Write `fsm_state`. -/
def State.withFsm (s : State) (f : FsmState) : State := { s with fsmState := f }

/-- A command ends with success: `status <- 0x0000`, with its results (20_memory.md R46). -/
def complete (results : Results) (calls : List PortCall) (s : State) :
    Host.Outcome State Fault Refusal :=
  .next (s.respond ⟨statusOk, results, calls⟩)

/-- `raise E`: the command ends, `status` gets the error's code, the result bundle is empty and no other register is
written (00_scope.md R7, 60_exceptions.md R201). -/
def raiseError (e : CommandError) (calls : List PortCall) (s : State) :
    Host.Outcome State Fault Refusal :=
  .next (s.respond ⟨errorStatus e, .empty, calls⟩)

/-- An illegal command word: status 0x0005, an empty result bundle, no port call, no other register
(30_encoding.md R63). -/
def illegalCommand (s : State) : Host.Outcome State Fault Refusal :=
  raiseError .illegalCommand [] s

/-- Power-on reset: `UNINIT`, status 0x0000, every other register without a value (70_reset_and_hazards.md R230).
The parameters are the implementation's and the responses already the host's: both stay (log entry 13). -/
def powerOnReset (s : State) : State :=
  { s with fsmState := .uninit, dev := none, status := 0x0000 }

/-- Run `k` with the registers of the created instance. StateError if none is loaded or it was saved (43_device.md R173,
R175, 60_exceptions.md R205). Registers that hold no value are never read (10_state.md R24, log entry 1). -/
def withInstance (s : State) (k : DeviceRegs → Host.Outcome State Fault Refusal) :
    Host.Outcome State Fault Refusal :=
  match s.fsmState, s.dev with
  | .created, some r => k r
  | _, _ => raiseError .state [] s

end Sys2Proof.Machine
end

