-- ==== Sys2Proof/Machine/Crc.lean ====
section
/-! DEFINITION. The CRC-16 unit: the accumulator function, the residual check and the stored field (41_crc16.md R120,
R122, R124) and the three commands (R121, R123, R125). -/

namespace Sys2Proof.Machine

/-- One round: shift right by one, with `0x8408` XORed in when the bit shifted out was 1 (41_crc16.md R120). -/
def crcRound (acc : BitVec 16) : BitVec 16 :=
  if acc.getLsbD 0 then (acc >>> 1) ^^^ Config.crcPoly else acc >>> 1

/-- `n` rounds. -/
def crcRounds : Nat → BitVec 16 → BitVec 16
  | 0, acc => acc
  | n + 1, acc => crcRounds n (crcRound acc)

/-- One byte: XOR into the low byte of the accumulator, then eight rounds (41_crc16.md R120). -/
def crcByte (acc : BitVec 16) (b : Byte) : BitVec 16 := crcRounds 8 (acc ^^^ b.zeroExtend 16)

/-- The accumulator after a byte string, from a given initial value (41_crc16.md R120; R126 uses the initial value 0). -/
def crcFrom (init : BitVec 16) (data : Bytes) : BitVec 16 := data.foldl crcByte init

/-- `crc16(data)` (41_crc16.md R120). -/
def crc16 (data : Bytes) : BitVec 16 := crcFrom Config.crcInit data

/-- `verify(data)` (41_crc16.md R122). -/
def crcVerify (data : Bytes) : Bool := crc16 data == Config.crcResidual

/-- `cksum_field(p)`: the complement of the CRC, low byte first (41_crc16.md R124). -/
def cksumField (p : Bytes) : Bytes := leBytes 2 (~~~ crc16 p)

@[simp] theorem cksumField_length (p : Bytes) : (cksumField p).length = 2 := leBytes_length 2 _

/-- `CRC16` (41_crc16.md R121). -/
def execCrc16 (data : Bytes) (s : State) : Host.Outcome State Fault Refusal :=
  complete (.crc (crc16 data)) [] s

/-- `CRC_VERIFY`: a failed check is the result 0, not an error (41_crc16.md R123). -/
def execCrcVerify (data : Bytes) (s : State) : Host.Outcome State Fault Refusal :=
  complete (.ok (crcVerify data)) [] s

/-- `CRC_FIELD` (41_crc16.md R125). -/
def execCrcField (data : Bytes) (s : State) : Host.Outcome State Fault Refusal :=
  complete (.field (cksumField data)) [] s

end Sys2Proof.Machine
end

