-- ==== Sys2Proof/Machine/ModHex.lean ====
section
/-! DEFINITION. The modhex codec: the alphabet (30_encoding.md R67), its helper functions (40_modhex.md R100) and the
three commands (R101 to R103). -/

namespace Sys2Proof.Machine

/-- The lower-case codes `cbdefghijklnrtuv`, row 0x0 first (30_encoding.md R67). -/
def modhexLower : List Byte :=
  [0x63, 0x62, 0x64, 0x65, 0x66, 0x67, 0x68, 0x69, 0x6A, 0x6B, 0x6C, 0x6E, 0x72, 0x74, 0x75, 0x76]

/-- The upper-case codes `CBDEFGHIJKLNRTUV`, row 0x0 first (30_encoding.md R67). -/
def modhexUpper : List Byte :=
  [0x43, 0x42, 0x44, 0x45, 0x46, 0x47, 0x48, 0x49, 0x4A, 0x4B, 0x4C, 0x4E, 0x52, 0x54, 0x55, 0x56]

/-- `mhx_char(n)`: the lower-case code of row `n` (40_modhex.md R100). -/
def mhxChar (n : BitVec 4) : Byte := modhexLower.getD n.toNat 0

/-- `mhx_val(c)`: the row whose lower-case or upper-case code is `c` (40_modhex.md R100). -/
def mhxVal (c : Byte) : Option (BitVec 4) :=
  match modhexLower.idxOf? c with
  | some n => some (BitVec.ofNat 4 n)
  | none => (modhexUpper.idxOf? c).map (BitVec.ofNat 4)

/-- The length is odd: `len(s) mod 2 = 1` (40_modhex.md R102). -/
def oddLength (s : Str) : Bool := s.length % 2 == 1

/-- Some byte is outside the alphabet: `mhx_val(s[i]) = none` for some `i` (40_modhex.md R102). -/
def hasForeignByte (s : Str) : Bool := s.any fun c => (mhxVal c).isNone

/-- `is_modhex(s)` (40_modhex.md R100). -/
def isModhex (s : Str) : Bool := !oddLength s && !hasForeignByte s

/-- The characters of the bytes, high nibble first (40_modhex.md R101, 20_memory.md R45). -/
def mhxEncode : Bytes → Str
  | [] => []
  | b :: rest => mhxChar (b.extractLsb' 4 4) :: mhxChar (b.extractLsb' 0 4) :: mhxEncode rest

/-- The bytes of a modhex string, `mhx_val(text[2j]) * 16 + mhx_val(text[2j+1])` each, or none if it is not one
(40_modhex.md R102). -/
def mhxDecode : Str → Option Bytes
  | [] => some []
  | [_] => none
  | hi :: lo :: rest =>
    match mhxVal hi, mhxVal lo, mhxDecode rest with
    | some h, some l, some tail => some ((h ++ l : BitVec 8) :: tail)
    | _, _, _ => none

/-- The case-normalised string `lower(s)` (40_modhex.md R104). -/
def mhxLower (s : Str) : Str :=
  s.map fun c => match mhxVal c with
    | some n => mhxChar n
    | none => c

/-- `MHX_ENC` (40_modhex.md R101). -/
def execMhxEnc (data : Bytes) (s : State) : Host.Outcome State Fault Refusal :=
  complete (.text (mhxEncode data)) [] s

/-- `MHX_DEC`: parity, then alphabet, then the bytes (40_modhex.md R102). -/
def execMhxDec (text : Str) (s : State) : Host.Outcome State Fault Refusal :=
  if oddLength text then raiseError (.validation .text .oddLength) [] s
  else
    match mhxDecode text with
    | none => raiseError (.validation .text .alphabet) [] s
    | some data => complete (.data data) [] s

/-- `MHX_VALID`: an invalid string is a result of 0, not an error (40_modhex.md R103). -/
def execMhxValid (text : Str) (s : State) : Host.Outcome State Fault Refusal :=
  complete (.valid (isModhex text)) [] s

end Sys2Proof.Machine
end

