-- ==== Sys2Proof/Machine/Token.lean ====
section
/-! DEFINITION. The token codec: pack and unpack (42_token.md R140, R142), the OTP string (30_encoding.md R69) and the
five commands (42_token.md R141, R143 to R146). -/

namespace Sys2Proof.Machine

/-- The first 14 bytes of a plaintext, in the order of 30_encoding.md R68 (42_token.md R140). -/
def packBody (f : TokenFields) : Bytes :=
  f.privateId.val ++ leBytes 2 f.usageCounter ++ leBytes 3 f.timestamp ++ [f.sessionCounter] ++ leBytes 2 f.random

theorem packBody_length (f : TokenFields) : (packBody f).length = 14 := by
  simp [packBody, f.privateId.property]

/-- `pack`: the body and its checksum field (42_token.md R140). -/
def pack (f : TokenFields) : Bytes16 :=
  ⟨packBody f ++ cksumField (packBody f), by simp [packBody_length]⟩

/-- The fields of a plaintext by their offsets (30_encoding.md R68, 42_token.md R142). -/
def fieldsOf (pt : Bytes16) : TokenFields where
  privateId := ⟨slice pt.val 0 6, by rw [slice_length _ _ _ (by rw [pt.property]; decide)]⟩
  usageCounter := BitVec.ofNat 16 (fromLe (slice pt.val 6 8))
  timestamp := BitVec.ofNat 24 (fromLe (slice pt.val 8 11))
  sessionCounter := pt.val[11]'(by rw [pt.property]; decide)
  random := BitVec.ofNat 16 (fromLe (slice pt.val 12 14))

/-- `unpack`: none unless the residual holds (42_token.md R142). -/
def unpack (pt : Bytes16) : Option TokenFields :=
  if crc16 pt.val = Config.crcResidual then some (fieldsOf pt) else none

/-- An OTP: `public_id || modhex(ciphertext)` (30_encoding.md R69, 42_token.md R145). -/
def formatOtp (publicId : Str) (ciphertext : Bytes16) : Str := publicId ++ mhxEncode ciphertext.val

/-- The 16 bytes that 32 modhex characters encode; none iff they are not modhex (42_token.md R146 step 2). -/
def mhxBlock (enc : Str) : Option Bytes16 := (mhxDecode enc).bind (asBytesN 16)

/-- `TOK_PACK` (42_token.md R141). -/
def execTokPack (privateId : Bytes6) (usageCounter : BitVec 16) (timestamp : BitVec 24) (sessionCounter : BitVec 8)
    (random : Option (BitVec 16)) (s : State) : Host.Outcome State Fault Refusal :=
  complete (.plaintext (pack ⟨privateId, usageCounter, timestamp, sessionCounter, randomField random s.ports⟩))
    (randomFieldCalls random) s

/-- `TOK_UNPACK` (42_token.md R143). -/
def execTokUnpack (plaintext : Bytes16) (s : State) : Host.Outcome State Fault Refusal :=
  match unpack plaintext with
  | none => raiseError .checksum [] s
  | some f => complete (.fields f) [] s

/-- `TOK_ENCRYPT` (42_token.md R144). -/
def execTokEncrypt (plaintext aesKey : Bytes16) (s : State) : Host.Outcome State Fault Refusal :=
  complete (.ciphertext (aesEnc aesKey plaintext)) [.aesEnc aesKey plaintext] s

/-- `TOK_FORMAT`: `public_id` is copied verbatim and not validated (42_token.md R145). -/
def execTokFormat (publicId : Str) (ciphertext : Bytes16) (s : State) : Host.Outcome State Fault Refusal :=
  complete (.otp (formatOtp publicId ciphertext)) [] s

/-- `TOK_PARSE`: length, then alphabet, then the checksum of the decrypted block (42_token.md R146). -/
def execTokParse (aesKey : Bytes16) (otp : Str) (s : State) : Host.Outcome State Fault Refusal :=
  if otp.length < Config.ciphertextChars then raiseError (.validation .otp .length) [] s
  else
    let pub := slice otp 0 (otp.length - Config.ciphertextChars)
    let enc := slice otp (otp.length - Config.ciphertextChars) otp.length
    match mhxBlock enc with
    | none => raiseError (.validation .otp .alphabet) [] s
    | some ct =>
      match unpack (aesDec aesKey ct) with
      | none => raiseError .checksum [.aesDec aesKey ct] s
      | some f => complete (.parsed pub f) [.aesDec aesKey ct] s

end Sys2Proof.Machine
end

