-- ==== Sys2Proof/Machine/Device.lean ====
section
/-! DEFINITION. The device state machine: validation (43_device.md R171), the live timestamp (R174), the save-time bump
(R176) and the three commands (R170, R173, R175). -/

namespace Sys2Proof.Machine

/-- `len(public_id) > PID_MAX_CHARS`; never, if the parameter is unbounded (43_device.md R171 check 3). -/
def publicIdTooLong (p : Config.Params) (publicId : Str) : Bool :=
  p.pidMaxChars.any fun limit => decide (limit < publicId.length)

/-- `validate_create`: the eight checks in their order, the first failure reported; on success the two byte strings at
their required lengths (43_device.md R171). -/
def validateCreate (p : Config.Params) (publicId : Str) (privateId aesKey : Bytes) (usageCounter : BitVec 32)
    (timestamp : Option (BitVec 32)) (sessionCounter : BitVec 32) : Except CommandError (Bytes6 × Bytes16) :=
  if oddLength publicId then .error (.validation .publicId .oddLength)
  else if hasForeignByte publicId then .error (.validation .publicId .alphabet)
  else if publicIdTooLong p publicId then .error (.validation .publicId .length)
  else
    match asBytesN Config.privateIdBytes privateId with
    | none => .error (.validation .privateId .length)
    | some pid =>
      match asBytesN Config.aesKeyBytes aesKey with
      | none => .error (.validation .aesKey .length)
      | some key =>
        if Config.usageMax < usageCounter.toNat then .error (.validation .usageCounter .range)
        else if timestamp.any (fun t => decide (Config.timestampMax < t.toNat)) then
          .error (.validation .timestamp .range)
        else if Config.sessionMax < sessionCounter.toNat then .error (.validation .sessionCounter .range)
        else .ok (pid, key)

/-- `live_ts(seed, E) = (seed + E) mod 2^24`, for every integer `E` (43_device.md R174). -/
def liveTs (seed : BitVec 24) (elapsed8 : Int) : BitVec 24 := BitVec.ofInt 24 (seed.toNat + elapsed8)

/-- `bump()` under `SAVE_BUMP_RULE` (43_device.md R176). -/
def saveBump (rule : Config.SaveBumpRule) (r : DeviceRegs) : BitVec 16 :=
  match rule with
  | .flag => if r.generated then 1 else 0
  | .counterGtZero => if 0 < r.sessionCounter.toNat then 1 else 0

/-- The plaintext fields of a generation: the registers, the live timestamp, the session counter's low byte from before
the increment, the random field (43_device.md R173 steps 2 and 3). -/
def generateFields (r : DeviceRegs) (random : Option (BitVec 16)) (a : PortAnswers) : TokenFields where
  privateId := r.privateId
  usageCounter := r.usageCounter
  timestamp := liveTs r.tsSeed a.elapsed8
  sessionCounter := r.sessionCounter.extractLsb' 0 8
  random := randomField random a

/-- The registers after a generation: the session counter plus 1, `generated` set (43_device.md R173 step 4). -/
def afterGenerate (r : DeviceRegs) : DeviceRegs :=
  { r with sessionCounter := r.sessionCounter + 1, generated := true }

/-- The record of a save (43_device.md R175). -/
def saveRecord (p : Config.Params) (r : DeviceRegs) : Record where
  publicId := r.publicId
  privateId := r.privateId
  aesKey := r.aesKey
  usageCounter := r.usageCounter + saveBump p.saveBumpRule r

/-- The registers `DEV_CREATE` writes (43_device.md R170). -/
def createdRegs (p : Config.Params) (publicId : Str) (privateId : Bytes6) (aesKey : Bytes16)
    (usageCounter : BitVec 32) (timestamp : Option (BitVec 32)) (sessionCounter : BitVec 32) (a : PortAnswers) :
    DeviceRegs where
  publicId := publicId
  privateId := privateId
  aesKey := aesKey
  usageCounter := usageCounter.extractLsb' 0 16
  tsSeed := seedOf p timestamp a
  sessionCounter := (sessionCounter.extractLsb' 0 8).zeroExtend 9
  generated := false
  poweron := a.now

/-- `DEV_CREATE`: create an instance, or load one from a persisted record (43_device.md R170). -/
def execDevCreate (publicId : Str) (privateId aesKey : Bytes) (usageCounter : BitVec 32)
    (timestamp : Option (BitVec 32)) (sessionCounter : BitVec 32) (s : State) : Host.Outcome State Fault Refusal :=
  match validateCreate s.params publicId privateId aesKey usageCounter timestamp sessionCounter with
  | .error e => raiseError e [] s
  | .ok (pid, key) =>
    complete .empty (seedCalls s.params timestamp ++ [.clockNow])
      ((s.withRegs (createdRegs s.params publicId pid key usageCounter timestamp sessionCounter s.ports)).withFsm
        .created)

/-- `DEV_GENERATE`: state, then overflow, then one OTP (43_device.md R173). -/
def execDevGenerate (random : Option (BitVec 16)) (s : State) : Host.Outcome State Fault Refusal :=
  withInstance s fun r =>
    if Config.sessionMax < r.sessionCounter.toNat then raiseError .overflow [] s
    else
      let pt := pack (generateFields r random s.ports)
      complete (.otp (formatOtp r.publicId (aesEnc r.aesKey pt)))
        ([.clockElapsed8 r.poweron] ++ randomFieldCalls random ++ [.aesEnc r.aesKey pt])
        (s.withRegs (afterGenerate r))

/-- `DEV_SAVE`: emit the record and end the instance (43_device.md R175). -/
def execDevSave (s : State) : Host.Outcome State Fault Refusal :=
  withInstance s fun r =>
    complete (.record (saveRecord s.params r)) [] (s.withFsm .persisted)

end Sys2Proof.Machine
end

