-- ==== Sys2Proof/Machine/Dispatch.lean ====
section
/-! DEFINITION. One arm per command: the machine's meaning of each (30_encoding.md R62). -/

namespace Sys2Proof.Machine

/-- The effect of one command on the state (30_encoding.md R62). -/
def exec (i : Instr) (s : State) : Host.Outcome State Fault Refusal :=
  match i with
  -- modhex_encoder, modhex_decoder
  | .mhxEnc data => Sys2Proof.Machine.execMhxEnc data s
  | .mhxDec text => Sys2Proof.Machine.execMhxDec text s
  | .mhxValid text => Sys2Proof.Machine.execMhxValid text s
  -- crc16_gen
  | .crc16 data => Sys2Proof.Machine.execCrc16 data s
  | .crcVerify data => Sys2Proof.Machine.execCrcVerify data s
  | .crcField data => Sys2Proof.Machine.execCrcField data s
  -- token_packer, token_unpacker
  | .tokPack pid u t n r => Sys2Proof.Machine.execTokPack pid u t n r s
  | .tokUnpack pt => Sys2Proof.Machine.execTokUnpack pt s
  | .tokEncrypt pt k => Sys2Proof.Machine.execTokEncrypt pt k s
  | .tokFormat pid ct => Sys2Proof.Machine.execTokFormat pid ct s
  | .tokParse k otp => Sys2Proof.Machine.execTokParse k otp s
  -- device_state_fsm
  | .devCreate pid i6 k u t n => Sys2Proof.Machine.execDevCreate pid i6 k u t n s
  | .devGenerate r => Sys2Proof.Machine.execDevGenerate r s
  | .devSave => Sys2Proof.Machine.execDevSave s

end Sys2Proof.Machine
end

