-- ==== Sys2Proof/Machine/Transact.lean ====
section
/-! DEFINITION. Running one transaction (30_encoding.md R60): the transport's limit, the decoder, the command. -/

namespace Sys2Proof.Machine

/-- Run a transaction the block has taken: an over-long operand is not carried (30_encoding.md R78), an illegal word
gives status 0x0005 (R63), a legal one is its command (R62). -/
def runTransaction (t : Transaction) (s : State) : Host.Outcome State Fault Refusal :=
  if carriable s.params t.operands then
    match decode t.word t.operands with
    | .error _ => illegalCommand s
    | .ok i => exec i s
  else .refused .operandTooLong

/-- The transaction of a table word: every operand empty or zero, all-zero port answers (log entry 3). -/
def tableTransaction (nbits w : Nat) : Transaction :=
  ⟨BitVec.ofNat 16 (w % 2 ^ nbits), Operands.zero, PortAnswers.zero⟩

end Sys2Proof.Machine
end

