-- ==== Sys2Proof/Machine/Step.lean ====
section
/-! DEFINITION. One step: the block takes the host's next event (30_encoding.md R60, 20_memory.md R47). -/

namespace Sys2Proof.Machine

/-- One step. With no event pending the block waits for the host (70_reset_and_hazards.md R230, 60_exceptions.md R214). -/
def step (s : State) : Host.Outcome State Fault Refusal :=
  match s.pending with
  | [] => .next s
  | .powerOn :: rest => .next (powerOnReset (s.dequeue rest))
  | .command t :: rest => runTransaction t (s.accept t rest)

/-- The state whose next step runs the command of the table word `w`. It stands for the host issuing that transaction
(log entries 2, 3). -/
def State.withFetchWord (s : State) (nbits w : Nat) : State :=
  { s with pending := .command (tableTransaction nbits w) :: s.pending }

end Sys2Proof.Machine
end

