-- ==== Sys2Proof/Machine/Asm.lean ====
section
/-! DEFINITION. The assembly syntax of one command (30_encoding.md R75): the text, its parsed form, and the command word
and operand bundle it assembles to. The host's tool, not the block's; conventions R75 leaves open are log entry 15. -/

namespace Sys2Proof.Machine

/-- A value as R75 writes it. -/
inductive AsmValue
  /-- `x"<hex digits>"`. -/
  | bytes (b : Bytes)
  /-- `"<ASCII>"`. -/
  | chars (s : Str)
  /-- Decimal or `0x` hexadecimal. -/
  | int (n : Nat)
  deriving DecidableEq, Repr

/-- One line: the mnemonic, then `name=value` operands in any order (30_encoding.md R75). -/
structure AsmLine where
  /-- The mnemonic. -/
  mnemonic : String
  /-- The operands as written. -/
  operands : List (String × AsmValue)
  deriving DecidableEq, Repr

/-- The value of an operand, if it is written. -/
def AsmLine.find (l : AsmLine) (name : String) : Option AsmValue :=
  (l.operands.find? fun o => o.1 == name).map (·.2)

/-- The line writes these operands and no other, each at most once (log entry 15). -/
def AsmLine.only (l : AsmLine) (names : List String) : Bool :=
  l.operands.all (fun o => names.contains o.1) && decide ((l.operands.map (·.1)).Nodup)

/-- A byte-string or character-string operand, which must be written (30_encoding.md R75). -/
def AsmLine.string (l : AsmLine) (name : String) : Option Bytes :=
  match l.find name with
  | some (.bytes b) => some b
  | some (.chars s) => some s
  | _ => none

/-- A fixed-width byte string, which must be written at its width (30_encoding.md R65, R75). -/
def AsmLine.stringN (l : AsmLine) (n : Nat) (name : String) : Option (BytesN n) :=
  (l.string name).bind (asBytesN n)

/-- An integer that fits its width (30_encoding.md R65). -/
def asmInt (w : Nat) (v : AsmValue) : Option (BitVec w) :=
  match v with
  | .int n => if n < 2 ^ w then some (BitVec.ofNat w n) else none
  | _ => none

/-- An integer operand that must be written: "Omitting any other operand is a syntax error" (30_encoding.md R75). -/
def AsmLine.int (l : AsmLine) (w : Nat) (name : String) : Option (BitVec w) :=
  (l.find name).bind (asmInt w)

/-- An integer operand whose omission clears its presence bit (30_encoding.md R75). -/
def AsmLine.optInt (l : AsmLine) (w : Nat) (name : String) : Option (Option (BitVec w)) :=
  match l.find name with
  | none => some none
  | some v => (asmInt w v).map some

/-- An integer operand whose omission writes 0 (30_encoding.md R75). -/
def AsmLine.intOrZero (l : AsmLine) (w : Nat) (name : String) : Option (BitVec w) :=
  match l.find name with
  | none => some 0
  | some v => asmInt w v

/-- The command of a line, or none on a syntax error (30_encoding.md R75). -/
def AsmLine.command (l : AsmLine) : Option Instr :=
  if l.mnemonic = "MHX_ENC" ∧ l.only ["data"] then (l.string "data").map .mhxEnc
  else if l.mnemonic = "MHX_DEC" ∧ l.only ["text"] then (l.string "text").map .mhxDec
  else if l.mnemonic = "MHX_VALID" ∧ l.only ["text"] then (l.string "text").map .mhxValid
  else if l.mnemonic = "CRC16" ∧ l.only ["data"] then (l.string "data").map .crc16
  else if l.mnemonic = "CRC_VERIFY" ∧ l.only ["data"] then (l.string "data").map .crcVerify
  else if l.mnemonic = "CRC_FIELD" ∧ l.only ["data"] then (l.string "data").map .crcField
  else if l.mnemonic = "TOK_PACK"
      ∧ l.only ["private_id", "usage_counter", "timestamp", "session_counter", "random"] then do
    let pid ← l.stringN 6 "private_id"
    let u ← l.int 16 "usage_counter"
    let t ← l.int 24 "timestamp"
    let n ← l.int 8 "session_counter"
    let r ← l.optInt 16 "random"
    some (.tokPack pid u t n r)
  else if l.mnemonic = "TOK_UNPACK" ∧ l.only ["plaintext"] then (l.stringN 16 "plaintext").map .tokUnpack
  else if l.mnemonic = "TOK_ENCRYPT" ∧ l.only ["plaintext", "aes_key"] then do
    let pt ← l.stringN 16 "plaintext"
    let k ← l.stringN 16 "aes_key"
    some (.tokEncrypt pt k)
  else if l.mnemonic = "TOK_FORMAT" ∧ l.only ["public_id", "ciphertext"] then do
    let pid ← l.string "public_id"
    let ct ← l.stringN 16 "ciphertext"
    some (.tokFormat pid ct)
  else if l.mnemonic = "TOK_PARSE" ∧ l.only ["aes_key", "otp"] then do
    let k ← l.stringN 16 "aes_key"
    let otp ← l.string "otp"
    some (.tokParse k otp)
  else if l.mnemonic = "DEV_CREATE"
      ∧ l.only ["public_id", "private_id", "aes_key", "usage_counter", "timestamp", "session_counter"] then do
    let pid ← l.string "public_id"
    let i6 ← l.string "private_id"
    let k ← l.string "aes_key"
    let u ← l.intOrZero 32 "usage_counter"
    let t ← l.optInt 32 "timestamp"
    let n ← l.intOrZero 32 "session_counter"
    some (.devCreate pid i6 k u t n)
  else if l.mnemonic = "DEV_GENERATE" ∧ l.only ["random"] then (l.optInt 16 "random").map .devGenerate
  else if l.mnemonic = "DEV_SAVE" ∧ l.only [] then some .devSave
  else none

/-- A lexical item of a line. -/
inductive AsmToken
  /-- A mnemonic or an operand name. -/
  | word (cs : List Char)
  /-- The sign between a name and its value. -/
  | equals
  /-- The sign between two operands. -/
  | comma
  /-- A value. -/
  | value (v : AsmValue)
  deriving DecidableEq, Repr

/-- The value of a hexadecimal digit, of either case (log entry 15). -/
def hexDigit (c : Char) : Option Nat :=
  if '0' ≤ c ∧ c ≤ '9' then some (c.toNat - 48)
  else if 'a' ≤ c ∧ c ≤ 'f' then some (c.toNat - 87)
  else if 'A' ≤ c ∧ c ≤ 'F' then some (c.toNat - 55)
  else none

/-- Two hexadecimal digits a byte, the first pair byte 0 (30_encoding.md R75). -/
def hexBytes : List Char → Option Bytes
  | [] => some []
  | [_] => none
  | a :: b :: rest =>
    match hexDigit a, hexDigit b, hexBytes rest with
    | some x, some y, some tail => some (BitVec.ofNat 8 (16 * x + y) :: tail)
    | _, _, _ => none

/-- The number that digits spell in a base, most significant first. -/
def digitsValue (base : Nat) : Nat → List Char → Option Nat
  | acc, [] => some acc
  | acc, c :: rest =>
    match hexDigit c with
    | some d => if d < base then digitsValue base (acc * base + d) rest else none
    | none => none

/-- A decimal or `0x`-prefixed number (30_encoding.md R75). -/
def asmNumber : List Char → Option Nat
  | '0' :: 'x' :: d :: rest => digitsValue 16 0 (d :: rest)
  | cs => digitsValue 10 0 cs

/-- The ASCII codes of characters, if all of them are ASCII (20_memory.md R42). -/
def asciiCodes (cs : List Char) : Option Str :=
  if cs.all (fun c => decide (c.toNat < 0x80)) then some (cs.map fun c => BitVec.ofNat 8 c.toNat) else none

/-- A character of a mnemonic, a name or a number. -/
def isWordChar (c : Char) : Bool := c.isAlphanum || c == '_'

/-- The lexical items of a line. DESIGN CHOICE, log entry 15: spaces outside literals separate items and mean nothing else;
a literal ends at the first double quote after its opening one, as R75 gives no escape, so a character literal holds no
double quote; one that is not closed is a syntax error. `fuel` bounds the number of items and spaces. -/
def asmLex : Nat → List Char → Option (List AsmToken)
  | _, [] => some []
  | 0, _ :: _ => none
  | fuel + 1, c :: cs =>
    if c = ' ' then asmLex fuel cs
    else if c = '=' then (asmLex fuel cs).map (.equals :: ·)
    else if c = ',' then (asmLex fuel cs).map (.comma :: ·)
    else if c = '"' then
      match cs.dropWhile (· ≠ '"') with
      | [] => none
      | _ :: rest => do
        let s ← asciiCodes (cs.takeWhile (· ≠ '"'))
        let tail ← asmLex fuel rest
        some (.value (.chars s) :: tail)
    else if c = 'x' ∧ cs.head? = some '"' then
      match cs.tail.dropWhile (· ≠ '"') with
      | [] => none
      | _ :: rest => do
        let b ← hexBytes (cs.tail.takeWhile (· ≠ '"'))
        let tail ← asmLex fuel rest
        some (.value (.bytes b) :: tail)
    else if c.isDigit then do
      let n ← asmNumber (c :: cs.takeWhile isWordChar)
      let tail ← asmLex fuel (cs.dropWhile isWordChar)
      some (.value (.int n) :: tail)
    else if isWordChar c then
      (asmLex fuel (cs.dropWhile isWordChar)).map (.word (c :: cs.takeWhile isWordChar) :: ·)
    else none

/-- Operands separated by commas (30_encoding.md R75). -/
def asmOperands : List AsmToken → Option (List (String × AsmValue))
  | [.word n, .equals, .value v] => some [(String.ofList n, v)]
  | .word n :: .equals :: .value v :: .comma :: rest => (asmOperands rest).map ((String.ofList n, v) :: ·)
  | _ => none

/-- The parsed form of a line of text, or none on a syntax error (30_encoding.md R75). -/
def parseLine (line : String) : Option AsmLine :=
  match asmLex line.toList.length line.toList with
  | some [.word m] => some ⟨String.ofList m, []⟩
  | some (.word m :: rest) => (asmOperands rest).map fun os => ⟨String.ofList m, os⟩
  | _ => none

/-- "Each line assembles to the command word of rule R61 and the operand bundle of rule R65" (30_encoding.md R75). -/
def assemble (line : String) : Option (BitVec 16 × Operands) :=
  ((parseLine line).bind AsmLine.command).map encode

end Sys2Proof.Machine
end

