-- ==== Sys2Proof/Machine/Pseudo.lean ====
section
/-! DEFINITION. The pseudo-commands (30_encoding.md R76). They are the host's: each expands to commands of the block. -/

namespace Sys2Proof.Machine

/-- `DEV_LOAD record=R`: `DEV_CREATE` of the record's four fields, with `TSP = 0` and `session_counter = 0` unless they
are given (30_encoding.md R76, 92_eei_decisions.md D7). -/
def devLoad (r : Record) (timestamp : Option (BitVec 32) := none) (sessionCounter : BitVec 32 := 0) : Instr :=
  .devCreate r.publicId r.privateId.val r.aesKey.val (r.usageCounter.zeroExtend 32) timestamp sessionCounter

/-- The operands of `TOK_MAKE` (30_encoding.md R76). -/
structure TokMake where
  /-- `public_id`. -/
  publicId : Str
  /-- `aes_key`. -/
  aesKey : Bytes16
  /-- `private_id`. -/
  privateId : Bytes6
  /-- `usage_counter`. -/
  usageCounter : BitVec 16
  /-- `timestamp`. -/
  timestamp : BitVec 24
  /-- `session_counter`. -/
  sessionCounter : BitVec 8
  /-- `random`, if written. -/
  random : Option (BitVec 16)
  deriving DecidableEq, Repr

/-- The first command of `TOK_MAKE` (30_encoding.md R76). -/
def tokMakePack (m : TokMake) : Instr :=
  .tokPack m.privateId m.usageCounter m.timestamp m.sessionCounter m.random

/-- The second command of `TOK_MAKE`, from the first one's result (30_encoding.md R76). -/
def tokMakeEncrypt (m : TokMake) (plaintext : Bytes16) : Instr := .tokEncrypt plaintext m.aesKey

/-- The third command of `TOK_MAKE`, from the second one's result (30_encoding.md R76). -/
def tokMakeFormat (m : TokMake) (ciphertext : Bytes16) : Instr := .tokFormat m.publicId ciphertext

/-- Run a command and hand its results to the host; a fault or refusal ends the sequence. -/
def andThen (o : Host.Outcome State Fault Refusal) (k : Results → State → Host.Outcome State Fault Refusal) :
    Host.Outcome State Fault Refusal :=
  match o with
  | .next s =>
    match s.responses with
    | [] => .next s
    | r :: _ => k r.results s
  | .fault f => .fault f
  | .refused r => .refused r

/-- The whole of `TOK_MAKE`, as the host runs it (30_encoding.md R76). A result that is not the expected one cannot occur;
the host would stop there (log entry 16). -/
def runTokMake (m : TokMake) (s : State) : Host.Outcome State Fault Refusal :=
  andThen (exec (tokMakePack m) s) fun r1 s1 =>
    match r1 with
    | .plaintext pt =>
      andThen (exec (tokMakeEncrypt m pt) s1) fun r2 s2 =>
        match r2 with
        | .ciphertext ct => exec (tokMakeFormat m ct) s2
        | _ => .next s2
    | _ => .next s1

end Sys2Proof.Machine
end

