-- ==== Sys2Proof/Safety.lean ====
section
/-! DEFINITION. What counts as a safe state and a safe run, in the terms claims use: the invariants of 10_state.md R24 and
R25, and the named premise on the clock (60_exceptions.md R210). -/

namespace Sys2Proof.Machine

/-- What R25 says of the registers (10_state.md R25, R12, R15, R17), and that a session in which nothing was generated
still holds a session counter that DEV_CREATE may write (R17, R18). -/
structure DeviceRegs.Ok (p : Config.Params) (r : DeviceRegs) : Prop where
  /-- `public_id` is a valid modhex string. -/
  publicId : isModhex r.publicId = true
  /-- `public_id` is within `PID_MAX_CHARS`. -/
  publicIdLength : publicIdTooLong p r.publicId = false
  /-- `usage_counter <= 0x7FFF`. -/
  usageCounter : r.usageCounter.toNat ≤ 0x7FFF
  /-- `session_counter <= 0x100`. -/
  sessionCounter : r.sessionCounter.toNat ≤ 0x100
  /-- `generated = 0` implies that `session_counter` is in the range DEV_CREATE writes. -/
  notGenerated : r.generated = false → r.sessionCounter.toNat ≤ 0xFF

/-- The invariant of the block: the registers hold a value exactly outside `UNINIT` (10_state.md R24), they meet R25, and
`status` is one of the producible values (30_encoding.md R74). -/
structure State.Inv (s : State) : Prop where
  /-- The registers have no value exactly in `UNINIT`. -/
  absent : s.dev = none ↔ s.fsmState = .uninit
  /-- The registers meet R25. -/
  regs : ∀ r, s.dev = some r → r.Ok s.params
  /-- `status` is a producible value. -/
  status : s.status ∈ producibleStatuses

/-- Every pending transaction can be carried (30_encoding.md R78); no restriction under the default. -/
def State.Carriable (s : State) : Prop :=
  ∀ t, HostEvent.command t ∈ s.pending → carriable s.params t.operands = true

/-- A safe step: the block answers, with no fault and no refusal. -/
def State.Answers (s : State) : Prop := ∃ t, step s = .next t

/-- The premise `CLOCK_MONOTONIC` on the clock answers of one session, first to last: "each `E` is at least 0 and at least
the previous `E` of the same session" (60_exceptions.md R210). -/
def ClockMonotonic (answers : List Int) : Prop :=
  (∀ e ∈ answers, 0 ≤ e) ∧ answers.Pairwise (· ≤ ·)

/-- What the host gets from one command: its status word and its result bundle (30_encoding.md R60). -/
def reply (i : Instr) (s : State) : Option (BitVec 16 × Results) :=
  match exec i s with
  | .next t => t.responses.head?.map fun r => (r.status, r.results)
  | _ => none

/-- The port calls one command makes (60_exceptions.md R210 to R212). -/
def callsOf (i : Instr) (s : State) : Option (List PortCall) :=
  match exec i s with
  | .next t => t.responses.head?.map (·.calls)
  | _ => none

/-- The identity registers (10_state.md R12 to R14, R21). -/
def identity (r : DeviceRegs) : Str × Bytes6 × Bytes16 := (r.publicId, r.privateId, r.aesKey)

/-- The commands of the codec units, the eleven of 40_modhex.md, 41_crc16.md and 42_token.md (43_device.md R179). -/
def codec : Instr → Bool
  | .mhxEnc _ => true
  | .mhxDec _ => true
  | .mhxValid _ => true
  | .crc16 _ => true
  | .crcVerify _ => true
  | .crcField _ => true
  | .tokPack _ _ _ _ _ => true
  | .tokUnpack _ => true
  | .tokEncrypt _ _ => true
  | .tokFormat _ _ => true
  | .tokParse _ _ => true
  | .devCreate _ _ _ _ _ _ => false
  | .devGenerate _ => false
  | .devSave => false

/-- A `DEV_GENERATE` the host issues: the `random` operand, if any, and the port answers during it. -/
abbrev Generation := Option (BitVec 16) × PortAnswers

/-- The host event of a generation (30_encoding.md R60). -/
def generateEvent (g : Generation) : HostEvent :=
  .command ⟨encodeWord (.devGenerate g.1), encodeOperands (.devGenerate g.1), g.2⟩

/-- One `DEV_GENERATE`: the counter pair that `TOK_PARSE` reads from its OTP, no pair if it reports an error (no OTP is
emitted), and the state after it; none if the block does not answer or the OTP does not parse. -/
def generatePair (key : Bytes16) (g : Generation) (s : State) : Option (List (Nat × Nat) × State) :=
  match exec (.devGenerate g.1) { s with ports := g.2 } with
  | .next t =>
    match t.responses with
    | ⟨_, .otp otp, _⟩ :: _ =>
      match reply (.tokParse key otp) t with
      | some (0x0000, .parsed _ f) => some ([(f.usageCounter.toNat, f.sessionCounter.toNat)], t)
      | _ => none
    | _ => some ([], t)
  | _ => none

/-- A run of generations: the pairs of their OTPs in order, and the state after them. -/
def generatePairs (key : Bytes16) : List Generation → State → Option (List (Nat × Nat) × State)
  | [], s => some ([], s)
  | g :: rest, s => do
    let (pairs, t) ← generatePair key g s
    let (later, u) ← generatePairs key rest t
    some (pairs ++ later, u)

/-- A session as the host keeps its duties (43_device.md R181): how it loads the record, its generations, and whether it
saves a session in which nothing was generated. A session that generated an OTP is always saved. -/
structure SessionPlan where
  /-- The timestamp override of the load, if any. -/
  timestamp : Option (BitVec 32)
  /-- The session counter the load gives. -/
  sessionCounter : BitVec 32
  /-- The port answers during the load. -/
  answers : PortAnswers
  /-- The generations of the session. -/
  generations : List Generation
  /-- Save the session even if it emitted no OTP. -/
  saves : Bool
  deriving DecidableEq, Repr

/-- A session: load the record, generate, save. The pairs emitted, the record the host then holds (the one the save
emitted, or the loaded one if the session is not saved) and the state after it; none if the load or the save does not
succeed. -/
def sessionPairs (plan : SessionPlan) (rec : Record) (s : State) : Option (List (Nat × Nat) × Record × State) :=
  match exec (devLoad rec plan.timestamp plan.sessionCounter) { s with ports := plan.answers } with
  | .next t =>
    if t.status = 0x0000 then do
      let (pairs, u) ← generatePairs rec.aesKey plan.generations t
      if pairs.isEmpty && !plan.saves then some (pairs, rec, u)
      else
        match exec .devSave u with
        | .next v =>
          match v.responses with
          | ⟨0x0000, .record saved, _⟩ :: _ => some (pairs, saved, v)
          | _ => none
        | _ => none
    else none
  | _ => none

/-- A chain of sessions, each loaded from the record the last save emitted: the pairs of all its OTPs, in order
(43_device.md R181). -/
def chainPairs : List SessionPlan → Record → State → Option (List (Nat × Nat))
  | [], _, _ => some []
  | plan :: rest, rec, s => do
    let (pairs, saved, t) ← sessionPairs plan rec s
    let later ← chainPairs rest saved t
    some (pairs ++ later)

/-- Bit `i` of a byte string flipped: bit `i mod 8` of byte `i div 8` (41_crc16.md R126, 95_test_vectors.md C15). -/
def flipBit (i : Nat) (b : Bytes) : Bytes := b.modify (i / 8) fun x => x ^^^ (1#8 <<< (i % 8))

end Sys2Proof.Machine
end

