-- ==== Sys2Proof/Certificates/Slice0/Obligations.lean ====
section
/-! DEFINITION. The statements about the model, for the provers. Each docstring names the rule of spec/ it formalises, and
the log entry where it rests on a choice of the model. -/

open Sys2Proof Sys2Proof.Machine

/-! ## The command word -/

/-- Decoding an encoded command gives the command, with every operand at every value; and encoding a decoded command
gives the word back, so that no legal word has a second meaning (30_encoding.md R61, R62, R65, R66). -/
def Obligations.DecodeAndEncodeAgree : Prop :=
  (∀ i : Instr, decode (encodeWord i) (encodeOperands i) = .ok i) ∧
  ∀ (w : BitVec 16) (o : Operands) (i : Instr), decode w o = .ok i →
    encodeWord i = w ∧ decode w (encodeOperands i) = .ok i

/-- A word decodes to a row's command exactly if it matches that row's match/mask pair (30_encoding.md R62). -/
def Obligations.LegalWordsMatchTheOpcodeMap : Prop :=
  (∀ (w : BitVec 16) (o : Operands) (i : Instr), decode w o = .ok i →
    ∃ r ∈ opcodeTable, r.accepts w = true ∧ i.opcode = r.opcode) ∧
  (∀ (w : BitVec 16) (o : Operands), ∀ r ∈ opcodeTable, r.accepts w = true →
    ∃ i, decode w o = .ok i ∧ i.opcode = r.opcode) ∧
  (∀ w : BitVec 16, (opcodeTable.filter (·.accepts w)).length ≤ 1) ∧
  (opcodeTable.map (·.opcode)).length = 14

/-- The legal words are seventeen, listed (30_encoding.md R77). -/
def Obligations.SeventeenLegalWords : Prop :=
  ∀ (w : BitVec 16) (o : Operands), (∃ i, decode w o = .ok i) ↔
    w ∈ ([0x0010, 0x0011, 0x0012, 0x0020, 0x0021, 0x0022, 0x0030, 0x0230, 0x0031, 0x0032, 0x0033, 0x0034, 0x0040,
      0x0140, 0x0041, 0x0241, 0x0042] : List (BitVec 16))

/-- Words written out from the spec's encoding decode to the commands they stand for, with the operand lanes R65 names
(30_encoding.md R61, R62, R65; 95_test_vectors.md W1 to W14). -/
def Obligations.WrittenOutWordsDecode : Prop :=
  ∀ o : Operands,
    decode 0x0010 o = .ok (.mhxEnc o.data) ∧
    decode 0x0021 o = .ok (.crcVerify o.data) ∧
    decode 0x0230 o = .ok (.tokPack o.privateId o.usageCounter o.timestamp o.sessionCounter (some o.random)) ∧
    decode 0x0030 o = .ok (.tokPack o.privateId o.usageCounter o.timestamp o.sessionCounter none) ∧
    decode 0x0140 o = .ok (.devCreate o.publicId o.createPrivateId o.createAesKey o.createUsageCounter
      (some o.createTimestamp) o.createSessionCounter) ∧
    decode 0x0241 o = .ok (.devGenerate (some o.random)) ∧
    decode 0x0042 o = .ok .devSave ∧
    decode 0x0050 o = .error .unknownOpcode ∧
    decode 0x0110 o = .error .presenceNotAllowed ∧
    decode 0x0340 o = .error .presenceNotAllowed ∧
    decode 0x0430 o = .error .reservedBits ∧
    decode 0x8010 o = .error .reservedBits

/-- What a carriable transaction decodes to is well formed (30_encoding.md R78). That `MAX_OPERAND_BYTES` bounds the byte
strings that travel with their length and not the fixed-width operands is the model's reading: log entry 9. -/
def Obligations.CarriedCommandsAreWellFormed : Prop :=
  ∀ (p : Config.Params) (w : BitVec 16) (o : Operands) (i : Instr),
    carriable p o = true → decode w o = .ok i → i.wf p = true

/-! ## The step -/

/-- A step runs the decoded command at the state that has taken the transaction: its event is off the queue and the ports
answer as the environment does during it (30_encoding.md R60, 20_memory.md R47). The queue is the model's form of the
host: log entry 2. -/
def Obligations.StepRunsTheDecodedCommand : Prop :=
  ∀ (s : State) (t : Transaction) (rest : List HostEvent) (i : Instr),
    s.pending = .command t :: rest → carriable s.params t.operands = true → decode t.word t.operands = .ok i →
    step s = exec i { s with pending := rest, ports := t.answers }

/-- An illegal word writes 0x0005 to `status`, returns an empty bundle, ignores its operands, calls no port and changes no
other register; a word is illegal if it matches no row, which is the three cases of R63 (30_encoding.md R63). The
premise on the transport is R78. -/
def Obligations.IllegalWordOnlyReportsStatus : Prop :=
  (∀ (s : State) (t : Transaction) (rest : List HostEvent),
    s.pending = .command t :: rest → carriable s.params t.operands = true →
    (∀ r ∈ opcodeTable, r.accepts t.word = false) →
    step s = .next { s with
      pending := rest, ports := t.answers, status := 0x0005, responses := ⟨0x0005, .empty, []⟩ :: s.responses }) ∧
  ∀ w : BitVec 16, (∀ r ∈ opcodeTable, r.accepts w = false) ↔
    (w.extractLsb' 10 6 ≠ 0 ∨
      w.extractLsb' 0 8 ∉ ([0x10, 0x11, 0x12, 0x20, 0x21, 0x22, 0x30, 0x31, 0x32, 0x33, 0x34, 0x40, 0x41, 0x42] :
        List (BitVec 8)) ∨
      (w.getLsbD 8 = true ∧ w.extractLsb' 0 8 ≠ 0x40) ∨
      (w.getLsbD 9 = true ∧ w.extractLsb' 0 8 ≠ 0x30 ∧ w.extractLsb' 0 8 ≠ 0x41))

/-- A transaction with a byte string over `MAX_OPERAND_BYTES` gets no step and no status; with the default nothing is
refused (30_encoding.md R78). Which operands are byte strings is log entry 9. -/
def Obligations.OverlongOperandGetsNoStep : Prop :=
  (∀ (s : State) (t : Transaction) (rest : List HostEvent) (limit : Nat),
    s.pending = .command t :: rest → s.params.maxOperandBytes = some limit →
    (limit < t.operands.data.length ∨ limit < t.operands.text.length ∨ limit < t.operands.publicId.length ∨
      limit < t.operands.otp.length ∨ limit < t.operands.createPrivateId.length ∨
      limit < t.operands.createAesKey.length) →
    step s = .refused .operandTooLong) ∧
  ∀ (s : State) (r : Refusal), s.params.maxOperandBytes = none → step s ≠ .refused r

/-- With no host event the block waits (70_reset_and_hazards.md R230, 60_exceptions.md R214), and power-on reset, the
host's event of log entry 13, leaves `UNINIT`, status 0x0000 and no register with a value. -/
def Obligations.HostEventsOutsideCommands : Prop :=
  (∀ s : State, s.pending = [] → step s = .next s) ∧
  ∀ (s : State) (rest : List HostEvent), s.pending = .powerOn :: rest →
    step s = .next { s with pending := rest, fsmState := .uninit, dev := none, status := 0x0000 }

/-- Power-on reset: `fsm_state = UNINIT` (0), `status = 0x0000`, no other register has a value, the block waits for the
host, and no command reads a valueless register in `UNINIT`: each answers there, and the same whatever the registers hold
(70_reset_and_hazards.md R230). -/
def Obligations.PowerOnResetState : Prop :=
  State.reset.fsmState = .uninit ∧ fsmCode State.reset.fsmState = 0 ∧ State.reset.status = 0x0000 ∧
  State.reset.dev = none ∧ step State.reset = .next State.reset ∧
  ∀ (i : Instr) (s : State) (d : Option DeviceRegs), s.fsmState = .uninit →
    reply i { s with dev := d } = reply i s ∧ ∃ t, exec i s = .next t

/-! ## ModHex -/

/-- The alphabet: the emitted codes row by row, and the decoder accepts exactly the lower-case and upper-case code of each
row (30_encoding.md R67, 40_modhex.md R100). -/
def Obligations.ModhexAlphabet : Prop :=
  ((List.range 16).map fun n => mhxChar (BitVec.ofNat 4 n)) =
    [0x63, 0x62, 0x64, 0x65, 0x66, 0x67, 0x68, 0x69, 0x6A, 0x6B, 0x6C, 0x6E, 0x72, 0x74, 0x75, 0x76] ∧
  (∀ (c : Byte) (n : BitVec 4), mhxVal c = some n ↔ (c = mhxChar n ∨ c = mhxChar n - 0x20)) ∧
  ∀ s : Str, isModhex s = true ↔ (s.length % 2 = 0 ∧ ∀ c ∈ s, mhxVal c ≠ none)

/-- `MHX_ENC`, word 0x0010, succeeds on every byte string and emits two characters a byte, the high nibble's first; only `status` and
the response change (40_modhex.md R101). -/
def Obligations.MhxEncEmitsTwoCharactersPerByte : Prop :=
  ∀ (data : Bytes) (s : State), encodeWord (.mhxEnc data) = 0x0010 ∧ ∃ text : Str,
    exec (.mhxEnc data) s = .next { s with
      status := 0x0000, responses := ⟨0x0000, .text text, []⟩ :: s.responses } ∧
    text.length = 2 * data.length ∧
    ∀ (j : Nat) (b : Byte), data[j]? = some b →
      text[2 * j]? = some (mhxChar (b.extractLsb' 4 4)) ∧ text[2 * j + 1]? = some (mhxChar (b.extractLsb' 0 4))

/-- `MHX_DEC`, word 0x0011: odd length, then alphabet, else the bytes `mhx_val(text[2j]) * 16 + mhx_val(text[2j+1])`; only `status` and
the response change (40_modhex.md R102). -/
def Obligations.MhxDecDecodesOrNamesTheError : Prop :=
  ∀ (text : Str) (s : State), encodeWord (.mhxDec text) = 0x0011 ∧
    (text.length % 2 = 1 → exec (.mhxDec text) s = .next { s with
      status := 0x0171, responses := ⟨0x0171, .empty, []⟩ :: s.responses }) ∧
    (text.length % 2 = 0 → (∃ c ∈ text, mhxVal c = none) → exec (.mhxDec text) s = .next { s with
      status := 0x0271, responses := ⟨0x0271, .empty, []⟩ :: s.responses }) ∧
    (text.length % 2 = 0 → (∀ c ∈ text, mhxVal c ≠ none) → ∃ data : Bytes,
      exec (.mhxDec text) s = .next { s with
        status := 0x0000, responses := ⟨0x0000, .data data, []⟩ :: s.responses } ∧
      2 * data.length = text.length ∧
      ∀ (j : Nat) (b : Byte), data[j]? = some b → ∃ (c d : Byte) (h l : BitVec 4),
        text[2 * j]? = some c ∧ text[2 * j + 1]? = some d ∧ mhxVal c = some h ∧ mhxVal d = some l ∧
        b.toNat = h.toNat * 16 + l.toNat)

/-- `MHX_VALID`, word 0x0012, succeeds on every string; its bit is 1 exactly on even length over the two alphabets, and an invalid
string is no error (40_modhex.md R103). -/
def Obligations.MhxValidTestsTheString : Prop :=
  ∀ (text : Str) (s : State), encodeWord (.mhxValid text) = 0x0012 ∧ ∃ v : Bool,
    exec (.mhxValid text) s = .next { s with
      status := 0x0000, responses := ⟨0x0000, .valid v, []⟩ :: s.responses } ∧
    (v = true ↔ text.length % 2 = 0 ∧ ∀ c ∈ text, c ∈ modhexLower ∨ c ∈ modhexUpper)

/-- The four laws of the codec, on the commands (40_modhex.md R104). -/
def Obligations.ModhexLaws : Prop :=
  (∀ (b : Bytes) (s : State), ∃ text, reply (.mhxEnc b) s = some (0x0000, .text text) ∧
    reply (.mhxDec text) s = some (0x0000, .data b)) ∧
  (∀ (t : Str) (s : State), isModhex t = true → ∃ b, reply (.mhxDec t) s = some (0x0000, .data b) ∧
    reply (.mhxEnc b) s = some (0x0000, .text (mhxLower t))) ∧
  (∀ (t : Str) (s : State), reply (.mhxValid t) s = some (0x0000, .valid true) ↔
    ∃ b, reply (.mhxDec t) s = some (0x0000, .data b)) ∧
  ∀ (a b : Bytes) (s : State), reply (.mhxEnc a) s = reply (.mhxEnc b) s → a = b

/-! ## CRC-16 -/

/-- `CRC16`, word 0x0020, succeeds on every byte string; the accumulator starts at 0xFFFF and each byte is XORed into its low byte and
followed by eight rounds of R120; the corner cases and the example of R121, the check value of R127. -/
def Obligations.Crc16Accumulates : Prop :=
  (∀ (data : Bytes) (s : State), encodeWord (.crc16 data) = 0x0020 ∧ exec (.crc16 data) s = .next { s with
    status := 0x0000, responses := ⟨0x0000, .crc (crc16 data), []⟩ :: s.responses }) ∧
  crc16 [] = 0xFFFF ∧
  (∀ (data : Bytes) (b : Byte), crc16 (data ++ [b]) =
    (fun acc : BitVec 16 => if acc.getLsbD 0 then (acc >>> 1) ^^^ 0x8408 else acc >>> 1)^[8]
      (crc16 data ^^^ b.zeroExtend 16)) ∧
  crc16 [0x00] = 0x0F87 ∧ crc16 [0xFF] = 0x00FF ∧ crc16 [0x01] = 0x1E0E ∧
  crc16 [0x31, 0x32, 0x33, 0x34, 0x35, 0x36, 0x37, 0x38, 0x39] = 0x6F91

/-- `CRC_VERIFY`, word 0x0021, succeeds on every byte string; its bit is 1 exactly on the residual 0xF0B8, so 0 on the empty string and 1
on every string with its own checksum field appended (41_crc16.md R122, R123). -/
def Obligations.CrcVerifyTestsTheResidual : Prop :=
  (∀ (data : Bytes) (s : State), encodeWord (.crcVerify data) = 0x0021 ∧ ∃ ok : Bool,
    exec (.crcVerify data) s = .next { s with
      status := 0x0000, responses := ⟨0x0000, .ok ok, []⟩ :: s.responses } ∧
    (ok = true ↔ crc16 data = 0xF0B8)) ∧
  (∀ s : State, reply (.crcVerify []) s = some (0x0000, .ok false)) ∧
  ∀ (p : Bytes) (s : State), reply (.crcVerify (p ++ cksumField p)) s = some (0x0000, .ok true)

/-- `CRC_FIELD`, word 0x0022, succeeds on every byte string and gives the complement of its CRC, low byte first (41_crc16.md R124,
R125). -/
def Obligations.CrcFieldIsTheComplement : Prop :=
  (∀ (data : Bytes) (s : State), encodeWord (.crcField data) = 0x0022 ∧ ∃ lo hi : Byte,
    exec (.crcField data) s = .next { s with
      status := 0x0000, responses := ⟨0x0000, .field [lo, hi], []⟩ :: s.responses } ∧
    lo.toNat + 256 * hi.toNat = 0xFFFF - (crc16 data).toNat) ∧
  (∀ s : State, reply (.crcField []) s = some (0x0000, .field [0x00, 0x00])) ∧
  ∀ s : State, reply (.crcField [0x11, 0x22, 0x33, 0x44, 0x55, 0x66, 0x00, 0x00, 0x03, 0x02, 0x01, 0x00, 0x34, 0x12]) s =
    some (0x0000, .field [0xB3, 0xDB])

/-- The residual law, the detection of every one-bit and two-bit change of a 16-byte buffer, and the linearity both rest
on (41_crc16.md R126). -/
def Obligations.CrcResidualAndDetection : Prop :=
  (∀ p : Bytes, crc16 (p ++ cksumField p) = 0xF0B8) ∧
  (∀ b : Bytes, b.length = 16 → crc16 b = 0xF0B8 → ∀ i < 128, crc16 (flipBit i b) ≠ 0xF0B8) ∧
  (∀ b : Bytes, b.length = 16 → crc16 b = 0xF0B8 → ∀ i < 128, ∀ j < 128, i ≠ j →
    crc16 (flipBit i (flipBit j b)) ≠ 0xF0B8) ∧
  ∀ a e : Bytes, a.length = e.length →
    crc16 (List.zipWith (· ^^^ ·) a e) = crc16 a ^^^ crcFrom 0 e

/-! ## Byte order -/

/-- The little-endian encoding and its inverse, on byte strings of every length (20_memory.md R43). -/
def Obligations.LittleEndianIntegers : Prop :=
  (∀ (n : Nat) (v : BitVec (8 * n)), (leBytes n v).length = n ∧ fromLe (leBytes n v) = v.toNat ∧
    ∀ i < n, (leBytes n v)[i]? = some (v.extractLsb' (8 * i) 8)) ∧
  ∀ b : Bytes, leBytes b.length (BitVec.ofNat (8 * b.length) (fromLe b)) = b

/-! ## The token codec -/

/-- `TOK_PACK`, word 0x0030 or with `random` 0x0230, succeeds always: the 16 bytes by their offsets, the random field given or drawn, and the port call of the
draw; every 16-bit value is a possible draw; the corner cases and the example of R141 (42_token.md R140, R141;
30_encoding.md R68). -/
def Obligations.TokPackLaysOutThePlaintext : Prop :=
  (∀ (pid : Bytes6) (u : BitVec 16) (t : BitVec 24) (n : BitVec 8) (random : Option (BitVec 16)) (s : State),
    encodeWord (.tokPack pid u t n random) = (if random.isSome then 0x0230 else 0x0030) ∧
    ∃ (r : BitVec 16) (pt : Bytes16) (lo hi : Byte),
      (∀ v, random = some v → r = v) ∧
      exec (.tokPack pid u t n random) s = .next { s with
        status := 0x0000
        responses := ⟨0x0000, .plaintext pt, if random.isSome then [] else [.randomBits 16]⟩ :: s.responses } ∧
      pt.val = pid.val ++ [u.extractLsb' 0 8, u.extractLsb' 8 8,
        t.extractLsb' 0 8, t.extractLsb' 8 8, t.extractLsb' 16 8, n, r.extractLsb' 0 8, r.extractLsb' 8 8, lo, hi] ∧
      lo.toNat + 256 * hi.toNat = 0xFFFF - (crc16 (pt.val.take 14)).toNat) ∧
  (∀ (pid : Bytes6) (u : BitVec 16) (t : BitVec 24) (n : BitVec 8) (v : BitVec 16) (s : State), ∃ entropy : Nat,
    reply (.tokPack pid u t n none) { s with ports := { s.ports with random := entropy } } =
      reply (.tokPack pid u t n (some v)) s) ∧
  (∀ s : State, reply (.tokPack (BytesN.zeros 6) 0 0 0 (some 0)) s = some (0x0000, .plaintext
    ⟨[0x00, 0x00, 0x00, 0x00, 0x00, 0x00, 0x00, 0x00, 0x00, 0x00, 0x00, 0x00, 0x00, 0x00, 0x6A, 0xA9], rfl⟩)) ∧
  (∀ s : State, reply (.tokPack ⟨[0xFF, 0xFF, 0xFF, 0xFF, 0xFF, 0xFF], rfl⟩ 0x7FFF 0xFFFFFF 0xFF (some 0xFFFF)) s =
    some (0x0000, .plaintext ⟨[0xFF, 0xFF, 0xFF, 0xFF, 0xFF, 0xFF, 0xFF, 0x7F, 0xFF, 0xFF, 0xFF, 0xFF, 0xFF, 0xFF, 0x21,
      0xFD], rfl⟩)) ∧
  (∀ s : State, reply (.tokPack ⟨[0xFF, 0xFF, 0xFF, 0xFF, 0xFF, 0xFF], rfl⟩ 0xFFFF 0xFFFFFF 0xFF (some 0xFFFF)) s =
    some (0x0000, .plaintext ⟨[0xFF, 0xFF, 0xFF, 0xFF, 0xFF, 0xFF, 0xFF, 0xFF, 0xFF, 0xFF, 0xFF, 0xFF, 0xFF, 0xFF, 0x3C,
      0x7B], rfl⟩)) ∧
  ∀ s : State, reply (.tokPack ⟨[0x11, 0x22, 0x33, 0x44, 0x55, 0x66], rfl⟩ 0 0x010203 0 (some 0x1234)) s =
    some (0x0000, .plaintext ⟨[0x11, 0x22, 0x33, 0x44, 0x55, 0x66, 0x00, 0x00, 0x03, 0x02, 0x01, 0x00, 0x34, 0x12, 0xB3,
      0xDB], rfl⟩)

/-- `TOK_UNPACK`, word 0x0031: ChecksumError unless the residual holds, else the fields by their offsets, not range-checked
(42_token.md R142, R143). -/
def Obligations.TokUnpackChecksThenReads : Prop :=
  ∀ (pt : Bytes16) (s : State), encodeWord (.tokUnpack pt) = 0x0031 ∧
    (crc16 pt.val ≠ 0xF0B8 → exec (.tokUnpack pt) s = .next { s with
      status := 0x0002, responses := ⟨0x0002, .empty, []⟩ :: s.responses }) ∧
    (crc16 pt.val = 0xF0B8 → ∃ f : TokenFields,
      exec (.tokUnpack pt) s = .next { s with
        status := 0x0000, responses := ⟨0x0000, .fields f, []⟩ :: s.responses } ∧
      f.privateId.val = pt.val.take 6 ∧
      f.usageCounter.toNat = (pt.val.getD 6 0).toNat + 256 * (pt.val.getD 7 0).toNat ∧
      f.timestamp.toNat =
        (pt.val.getD 8 0).toNat + 256 * (pt.val.getD 9 0).toNat + 65536 * (pt.val.getD 10 0).toNat ∧
      f.sessionCounter = pt.val.getD 11 0 ∧
      f.random.toNat = (pt.val.getD 12 0).toNat + 256 * (pt.val.getD 13 0).toNat)

/-- `TOK_ENCRYPT`, word 0x0032, succeeds always: one block through the AES port, no checksum check (42_token.md R144); the port is a
permutation of the blocks for every key and `AES_DEC` its inverse (60_exceptions.md R212). -/
def Obligations.TokEncryptCallsTheAesPort : Prop :=
  (∀ (pt key : Bytes16) (s : State), encodeWord (.tokEncrypt pt key) = 0x0032 ∧ exec (.tokEncrypt pt key) s = .next { s with
    status := 0x0000
    responses := ⟨0x0000, .ciphertext (aesEnc key pt), [.aesEnc key pt]⟩ :: s.responses }) ∧
  ∀ key : Bytes16, Function.Bijective (aesEnc key) ∧
    Function.LeftInverse (aesDec key) (aesEnc key) ∧ Function.RightInverse (aesDec key) (aesEnc key)

/-- `TOK_FORMAT`, word 0x0033, succeeds always: the public ID verbatim, then the 32 characters of the ciphertext
(42_token.md R145). -/
def Obligations.TokFormatComposesTheOtp : Prop :=
  ∀ (pid : Str) (ct : Bytes16) (s : State), encodeWord (.tokFormat pid ct) = 0x0033 ∧ ∃ tail : Str,
    exec (.tokFormat pid ct) s = .next { s with
      status := 0x0000, responses := ⟨0x0000, .otp (pid ++ tail), []⟩ :: s.responses } ∧
    reply (.mhxEnc ct.val) s = some (0x0000, .text tail) ∧ tail.length = 32

/-- `TOK_PARSE`, word 0x0034: length, then alphabet, then the checksum of the decrypted block; on success the prefix verbatim and the
fields (42_token.md R146). -/
def Obligations.TokParseChecksInOrder : Prop :=
  ∀ (key : Bytes16) (otp : Str) (s : State), encodeWord (.tokParse key otp) = 0x0034 ∧
    (otp.length < 32 → exec (.tokParse key otp) s = .next { s with
      status := 0x0481, responses := ⟨0x0481, .empty, []⟩ :: s.responses }) ∧
    (32 ≤ otp.length → isModhex (otp.drop (otp.length - 32)) = false → exec (.tokParse key otp) s = .next { s with
      status := 0x0281, responses := ⟨0x0281, .empty, []⟩ :: s.responses }) ∧
    (32 ≤ otp.length → isModhex (otp.drop (otp.length - 32)) = true → ∃ ct : Bytes16,
      reply (.mhxDec (otp.drop (otp.length - 32))) s = some (0x0000, .data ct.val) ∧
      (crc16 (aesDec key ct).val ≠ 0xF0B8 → exec (.tokParse key otp) s = .next { s with
        status := 0x0002, responses := ⟨0x0002, .empty, [.aesDec key ct]⟩ :: s.responses }) ∧
      (crc16 (aesDec key ct).val = 0xF0B8 → ∃ f : TokenFields,
        reply (.tokUnpack (aesDec key ct)) s = some (0x0000, .fields f) ∧
        exec (.tokParse key otp) s = .next { s with
          status := 0x0000
          responses := ⟨0x0000, .parsed (otp.take (otp.length - 32)) f, [.aesDec key ct]⟩ :: s.responses }))

/-- The round trip: pack, encrypt, format and parse give the public ID and the fields back, for every public ID, key and
fields (42_token.md R148). It is also where `TOK_PARSE` succeeds, with no premise on the cipher but R212. -/
def Obligations.TokenRoundTrip : Prop :=
  ∀ (P : Str) (K : Bytes16) (f : TokenFields) (s : State),
    ∃ (pt ct : Bytes16) (otp : Str),
      reply (.tokPack f.privateId f.usageCounter f.timestamp f.sessionCounter (some f.random)) s =
        some (0x0000, .plaintext pt) ∧
      reply (.tokEncrypt pt K) s = some (0x0000, .ciphertext ct) ∧
      reply (.tokFormat P ct) s = some (0x0000, .otp otp) ∧
      exec (.tokParse K otp) s = .next { s with
        status := 0x0000, responses := ⟨0x0000, .parsed P f, [.aesDec K ct]⟩ :: s.responses }

/-- Tampering: an OTP whose last 32 characters are changed, by more than their case, never parses back to the same fields
(42_token.md R149). A change of case alone keeps the ciphertext (95_test_vectors.md T17): log entry 17. -/
def Obligations.TamperedOtpNeverKeepsItsFields : Prop :=
  ∀ (K : Bytes16) (pub tail tail' : Str) (f : TokenFields) (s : State),
    tail.length = 32 → tail'.length = 32 → mhxLower tail ≠ mhxLower tail' →
    reply (.tokParse K (pub ++ tail)) s = some (0x0000, .parsed pub f) →
    reply (.tokParse K (pub ++ tail')) s = some (0x0281, .empty) ∨
    reply (.tokParse K (pub ++ tail')) s = some (0x0002, .empty) ∨
    ∃ f', f' ≠ f ∧ reply (.tokParse K (pub ++ tail')) s = some (0x0000, .parsed pub f')

/-- A codec command answers in every state, writes nothing but `status` and the response, and its response is a function of
its operands and its port answers alone (42_token.md R147, 40_modhex.md and 41_crc16.md preambles). -/
def Obligations.CodecCommandsTouchNoDeviceRegister : Prop :=
  ∀ i : Instr, codec i = true → ∃ response : PortAnswers → Response,
    ∀ s : State, exec i s = .next { s with
      status := (response s.ports).status, responses := response s.ports :: s.responses }

/-! ## The device state machine -/

/-- `DEV_CREATE`, word 0x0040 or with `timestamp` 0x0140, with operands that meet R171 writes every register as R170 says, in every `fsm_state`, makes its port calls
and answers 0x0000 with an empty bundle; on any error no register but `status` changes (43_device.md R170). The seed of
`TSP = 0` is the draw `seedOf` of log entry 4: `SeedDrawLeavesTheMargin` says which values it can have. -/
def Obligations.DevCreateWritesEveryRegister : Prop :=
  (∀ (pid : Str) (i6 : Bytes6) (key : Bytes16) (u : BitVec 32) (ts : Option (BitVec 32)) (n : BitVec 32) (s : State),
    pid.length % 2 = 0 → (∀ c ∈ pid, mhxVal c ≠ none) → (∀ limit, s.params.pidMaxChars = some limit → pid.length ≤ limit) →
    u.toNat ≤ 0x7FFF → (∀ t, ts = some t → t.toNat ≤ 0xFFFFFF) → n.toNat ≤ 0xFF →
    ∃ seed : BitVec 24, (∀ t, ts = some t → seed.toNat = t.toNat) ∧ (ts = none → seed = seedOf s.params none s.ports) ∧
    exec (.devCreate pid i6.val key.val u ts n) s = .next { s with
      fsmState := .created
      dev := some {
        publicId := pid, privateId := i6, aesKey := key
        usageCounter := BitVec.ofNat 16 u.toNat
        tsSeed := seed
        sessionCounter := BitVec.ofNat 9 n.toNat
        generated := false
        poweron := s.ports.now }
      status := 0x0000
      responses := ⟨0x0000, .empty,
        (if ts.isSome then [] else [.randomRange 0 (2 ^ 24 - s.params.tsMargin)]) ++ [.clockNow]⟩ :: s.responses }) ∧
  ∀ (pid : Str) (i6 key : Bytes) (u : BitVec 32) (ts : Option (BitVec 32)) (n : BitVec 32),
    encodeWord (.devCreate pid i6 key u ts n) = (if ts.isSome then 0x0140 else 0x0040) ∧
    ∀ s t : State, exec (.devCreate pid i6 key u ts n) s = .next t → t.status ≠ 0x0000 →
      t = { s with status := t.status, responses := ⟨t.status, .empty, []⟩ :: s.responses }

/-- `DEV_CREATE` reports the first of the eight checks of R171 that fails, in their order, and 0x0000 if none does
(43_device.md R171). -/
def Obligations.DevCreateReportsTheFirstFailure : Prop :=
  ∀ (pid : Str) (i6 key : Bytes) (u : BitVec 32) (ts : Option (BitVec 32)) (n : BitVec 32) (s : State),
    let checks : List (Bool × BitVec 16) :=
      [(pid.length % 2 == 1, 0x0111),
       (pid.any fun c => mhxVal c == none, 0x0211),
       (s.params.pidMaxChars.any fun limit => decide (limit < pid.length), 0x0411),
       (i6.length != 6, 0x0421),
       (key.length != 16, 0x0431),
       (decide (0x7FFF < u.toNat), 0x0341),
       (ts.any fun t => decide (0xFFFFFF < t.toNat), 0x0351),
       (decide (0xFF < n.toNat), 0x0361)]
    ∃ t, exec (.devCreate pid i6 key u ts n) s = .next t ∧
      t.status = ((checks.find? (·.1)).map (·.2)).getD 0x0000

/-- The seed drawn with `TSP = 0` lies in `[0, 2^24 - TS_MARGIN]`, every value of that range can be drawn, and from any seed
of the default range the timestamp runs `2^20 - 1` ticks before it wraps (43_device.md R172). For `TS_MARGIN` outside
`[1, 2^24]` see log entry 8. -/
def Obligations.SeedDrawLeavesTheMargin : Prop :=
  (∀ (p : Config.Params) (a : PortAnswers), 1 ≤ p.tsMargin → p.tsMargin ≤ 2 ^ 24 →
    (seedOf p none a).toNat ≤ 2 ^ 24 - p.tsMargin) ∧
  (∀ (p : Config.Params) (a : PortAnswers) (v : Nat), 1 ≤ p.tsMargin → p.tsMargin ≤ 2 ^ 24 → v ≤ 2 ^ 24 - p.tsMargin →
    ∃ entropy, (seedOf p none { a with random := entropy }).toNat = v) ∧
  ∀ (p : Config.Params) (a : PortAnswers) (elapsed : Nat), p.tsMargin = 2 ^ 20 → elapsed ≤ 2 ^ 20 - 1 →
    (liveTs (seedOf p none a) elapsed).toNat = (seedOf p none a).toNat + elapsed

/-- The live timestamp is `(seed + E) mod 2^24` for every integer `E`, so it repeats every `2^24` ticks
(43_device.md R174, 70_reset_and_hazards.md R236). -/
def Obligations.LiveTimestampWraps : Prop :=
  (∀ (seed : BitVec 24) (E : Int), ((liveTs seed E).toNat : Int) = ((seed.toNat : Int) + E) % (2 ^ 24 : Int)) ∧
  ∀ (seed : BitVec 24) (E : Int), liveTs seed (E + 2 ^ 24) = liveTs seed E

/-- `DEV_GENERATE`, word 0x0041 or with `random` 0x0241. In `CREATED` with `session_counter <= 0xFF` the OTP carries the
registers, the live timestamp and the session counter from before the increment; the counter goes up by 1, `generated` is
set, no other register changes, and each port is called at most once. Outside `CREATED` StateError, checked first, and in
`CREATED` above 0xFF OverflowError, each with no port call and no other effect (43_device.md R173; above 0x100, which no
run reaches, see log entry 11). -/
def Obligations.DevGenerateEmitsOneOtpOrFails : Prop :=
  (∀ (random : Option (BitVec 16)) (s : State) (r : DeviceRegs),
    s.fsmState = .created → s.dev = some r → r.sessionCounter.toNat ≤ 0xFF →
    ∃ (ts : BitVec 24) (pt : Bytes16) (tail : Str),
      (ts.toNat : Int) = ((r.tsSeed.toNat : Int) + s.ports.elapsed8) % (2 ^ 24 : Int) ∧
      reply (.tokPack r.privateId r.usageCounter ts (BitVec.ofNat 8 r.sessionCounter.toNat) random) s =
        some (0x0000, .plaintext pt) ∧
      reply (.mhxEnc (aesEnc r.aesKey pt).val) s = some (0x0000, .text tail) ∧
      exec (.devGenerate random) s = .next { s with
        dev := some { r with sessionCounter := BitVec.ofNat 9 (r.sessionCounter.toNat + 1), generated := true }
        status := 0x0000
        responses := ⟨0x0000, .otp (r.publicId ++ tail),
          [.clockElapsed8 r.poweron] ++ (if random.isSome then [] else [.randomBits 16]) ++ [.aesEnc r.aesKey pt]⟩
            :: s.responses }) ∧
  (∀ (random : Option (BitVec 16)) (s : State), s.fsmState ≠ .created → exec (.devGenerate random) s = .next { s with
    status := 0x0004, responses := ⟨0x0004, .empty, []⟩ :: s.responses }) ∧
  (∀ (random : Option (BitVec 16)) (s : State) (r : DeviceRegs), s.fsmState = .created → s.dev = some r →
    0xFF < r.sessionCounter.toNat → exec (.devGenerate random) s = .next { s with
      status := 0x0003, responses := ⟨0x0003, .empty, []⟩ :: s.responses }) ∧
  ∀ random : Option (BitVec 16), encodeWord (.devGenerate random) = if random.isSome then 0x0241 else 0x0041

/-- No command reads a register that holds no value (10_state.md R24): every command answers in every state, with no fault
and no refusal; where the registers hold no value, `DEV_GENERATE` and `DEV_SAVE` report StateError with no other effect, in
every `fsm_state` (in `CREATED`, which no run reaches so, the model's deduction of log entry 1), and only a successful
`DEV_CREATE` gives them a value. -/
def Obligations.NoCommandReadsAValuelessRegister : Prop :=
  (∀ (i : Instr) (s : State), ∃ t, exec i s = .next t) ∧
  (∀ (i : Instr) (s : State), s.dev = none → (i = .devSave ∨ ∃ random, i = .devGenerate random) →
    exec i s = .next { s with status := 0x0004, responses := ⟨0x0004, .empty, []⟩ :: s.responses }) ∧
  ∀ (i : Instr) (s t : State), s.dev = none → exec i s = .next t →
    (t.dev ≠ none ↔ i.opcode = .devCreate ∧ t.status = 0x0000)

/-- `DEV_SAVE`, word 0x0042. In `CREATED` it emits the record with the bump of R176 under either setting, moves to
`PERSISTED` and writes no other register, the `usage_counter` register included; elsewhere StateError with no other effect
(43_device.md R175). -/
def Obligations.DevSaveEmitsTheRecordOrFails : Prop :=
  encodeWord .devSave = 0x0042 ∧
  (∀ s : State, s.fsmState ≠ .created → exec .devSave s = .next { s with
    status := 0x0004, responses := ⟨0x0004, .empty, []⟩ :: s.responses }) ∧
  ∀ (s : State) (r : DeviceRegs), s.fsmState = .created → s.dev = some r →
    ∃ u : BitVec 16,
      exec .devSave s = .next { s with
        fsmState := .persisted
        status := 0x0000
        responses := ⟨0x0000, .record ⟨r.publicId, r.privateId, r.aesKey, u⟩, []⟩ :: s.responses } ∧
      (s.params.saveBumpRule = .flag → r.generated = true → u = r.usageCounter + 1) ∧
      (s.params.saveBumpRule = .flag → r.generated = false → u = r.usageCounter) ∧
      (s.params.saveBumpRule = .counterGtZero → r.sessionCounter.toNat > 0 → u = r.usageCounter + 1) ∧
      (s.params.saveBumpRule = .counterGtZero → r.sessionCounter.toNat = 0 → u = r.usageCounter)

/-- The two bump rules agree in every session whose `DEV_CREATE` had `session_counter = 0`, after any number of
`DEV_GENERATE` commands, succeeding or not (43_device.md R176). -/
def Obligations.BumpRulesAgreeAfterAZeroStart : Prop :=
  ∀ (pid : Str) (i6 k : Bytes) (u : BitVec 32) (ts : Option (BitVec 32)) (s₀ s : State) (gs : List Generation)
    (rest : List HostEvent),
    exec (.devCreate pid i6 k u ts 0) s₀ = .next s → s.status = 0x0000 →
    ∃ (t : State) (r : DeviceRegs),
      Sys2Proof.core.run gs.length { s with pending := gs.map generateEvent ++ rest } = .next t ∧ t.dev = some r ∧
      saveBump .flag r = saveBump .counterGtZero r ∧ (saveBump .flag r = 1 ↔ gs ≠ [])

/-- The complete transition table: for every command in every state that meets the invariant, the state after, the status
and the registers written (43_device.md R179). -/
def Obligations.TransitionTable : Prop :=
  ∀ (s : State) (tr : Transaction) (rest : List HostEvent), s.Inv → s.pending = .command tr :: rest →
    carriable s.params tr.operands = true →
    ∃ t, step s = .next t ∧
      match decode tr.word tr.operands with
      | .error _ => t.status = 0x0005 ∧ t.fsmState = s.fsmState ∧ t.dev = s.dev
      | .ok (.devCreate pid i6 key u ts n) =>
        (t.status = 0x0000 ∧ t.fsmState = .created ∧ ∃ pid6 key16,
          validateCreate s.params pid i6 key u ts n = .ok (pid6, key16) ∧
          t.dev = some (createdRegs s.params pid pid6 key16 u ts n tr.answers)) ∨
        (∃ e, validateCreate s.params pid i6 key u ts n = .error e ∧ t.status = errorStatus e ∧
          t.fsmState = s.fsmState ∧ t.dev = s.dev)
      | .ok (.devGenerate _) =>
        (s.fsmState ≠ .created ∧ t.status = 0x0004 ∧ t.fsmState = s.fsmState ∧ t.dev = s.dev) ∨
        (s.fsmState = .created ∧ ∃ r, s.dev = some r ∧
          ((r.sessionCounter.toNat ≤ 0xFF ∧ t.status = 0x0000 ∧ t.fsmState = .created ∧
              t.dev = some { r with sessionCounter := r.sessionCounter + 1, generated := true }) ∨
            (r.sessionCounter.toNat = 0x100 ∧ t.status = 0x0003 ∧ t.fsmState = .created ∧ t.dev = s.dev)))
      | .ok .devSave =>
        (s.fsmState ≠ .created ∧ t.status = 0x0004 ∧ t.fsmState = s.fsmState ∧ t.dev = s.dev) ∨
        (s.fsmState = .created ∧ t.status = 0x0000 ∧ t.fsmState = .persisted ∧ t.dev = s.dev)
      | .ok i => codec i = true ∧ t.fsmState = s.fsmState ∧ t.dev = s.dev

/-! ## Whole-machine rules -/

/-- The invariant holds right after reset: nothing has a value, `status` is producible (10_state.md R24). -/
def Obligations.ResetMeetsTheInvariant : Prop := State.reset.Inv

/-- Every step keeps the invariant: the registers hold a value exactly outside `UNINIT`, they meet R25, `status` is producible
(10_state.md R24, R25; 30_encoding.md R74). The bounds are stated outside `CREATED` too, and the last clause of R25 is
stated as `GeneratedFlagTracksTheSession`. -/
def Obligations.EveryStepKeepsTheInvariant : Prop :=
  ∀ s t : State, s.Inv → step s = .next t → t.Inv

/-- In every state, even one that no run reaches, the block answers: no fault, and no refusal if every pending transaction can be
carried (20_memory.md R46, 30_encoding.md R78); and the parameters and the carriability of what is still pending stay. -/
def Obligations.TheBlockAlwaysAnswers : Prop :=
  ∀ s : State, s.Carriable → ∃ t, step s = .next t ∧ t.params = s.params ∧ t.Carriable

/-- The identity registers, `usage_counter`, `ts_seed` and `poweron` are written only by a successful `DEV_CREATE`
(10_state.md R21; R15, R16, R19). -/
def Obligations.IdentityIsFixedAtCreation : Prop :=
  ∀ (i : Instr) (s t : State), exec i s = .next t →
    (t.status = 0x0000 ∧ i.opcode = .devCreate) ∨
    (t.dev.map identity = s.dev.map identity ∧ t.dev.map (·.usageCounter) = s.dev.map (·.usageCounter) ∧
      t.dev.map (·.tsSeed) = s.dev.map (·.tsSeed) ∧ t.dev.map (·.poweron) = s.dev.map (·.poweron))

/-- `session_counter`, in a state that meets the invariant: a successful `DEV_CREATE` writes a value in `[0, 0xFF]`, a successful `DEV_GENERATE` adds exactly 1, no
other command writes it; it reaches 0x100 only by a `DEV_GENERATE` that emitted 0xFF, and there every `DEV_GENERATE` fails
with OverflowError (10_state.md R17). -/
def Obligations.SessionCounterWriters : Prop :=
  (∀ (i : Instr) (s t : State), s.Inv → exec i s = .next t →
    (i.opcode = .devCreate → t.status = 0x0000 → ∃ r, t.dev = some r ∧ r.sessionCounter.toNat ≤ 0xFF) ∧
    (i.opcode = .devGenerate → t.status = 0x0000 → ∃ r r', s.dev = some r ∧ t.dev = some r' ∧
      r'.sessionCounter.toNat = r.sessionCounter.toNat + 1 ∧ r'.sessionCounter.toNat ≤ 0x100) ∧
    ((i.opcode ≠ .devCreate ∧ i.opcode ≠ .devGenerate) ∨ t.status ≠ 0x0000 →
      t.dev.map (·.sessionCounter) = s.dev.map (·.sessionCounter))) ∧
  ∀ (random : Option (BitVec 16)) (s : State) (r : DeviceRegs), s.fsmState = .created → s.dev = some r →
    r.sessionCounter.toNat = 0x100 → reply (.devGenerate random) s = some (0x0003, .empty)

/-- `generated`: a successful `DEV_CREATE` clears it, a successful `DEV_GENERATE` sets it, no other command writes it, and
while it is 0 the session counter keeps the value `DEV_CREATE` wrote (10_state.md R18, last clause of R25). -/
def Obligations.GeneratedFlagTracksTheSession : Prop :=
  ∀ (i : Instr) (s t : State), exec i s = .next t →
    (i.opcode = .devCreate → t.status = 0x0000 → t.dev.map (·.generated) = some false) ∧
    (i.opcode = .devGenerate → t.status = 0x0000 → t.dev.map (·.generated) = some true) ∧
    ((i.opcode ≠ .devCreate ∧ i.opcode ≠ .devGenerate) ∨ t.status ≠ 0x0000 →
      t.dev.map (·.generated) = s.dev.map (·.generated) ∧
      t.dev.map (·.sessionCounter) = s.dev.map (·.sessionCounter))

/-- `status`: every command writes it, the response carries it, no command reads it, and it is the only register an illegal
word writes (10_state.md R20). -/
def Obligations.StatusIsWrittenAndNeverRead : Prop :=
  (∀ (i : Instr) (s t : State), exec i s = .next t → ∃ r, t.responses = r :: s.responses ∧ r.status = t.status) ∧
  (∀ (i : Instr) (s : State) (x : BitVec 16), exec i { s with status := x } = exec i s) ∧
  ∀ s : State, illegalCommand s = .next { s with
    status := 0x0005, responses := ⟨0x0005, .empty, []⟩ :: s.responses }

/-- Every status a command can report, command by command (30_encoding.md R74's list; R72, R73). -/
def Obligations.StatusValuesByCommand : Prop :=
  ∀ (i : Instr) (s t : State), exec i s = .next t → t.status ∈ (match i.opcode with
    | .mhxDec => [0x0000, 0x0171, 0x0271]
    | .tokParse => [0x0000, 0x0281, 0x0481, 0x0002]
    | .tokUnpack => [0x0000, 0x0002]
    | .devCreate => [0x0000, 0x0111, 0x0211, 0x0421, 0x0431, 0x0341, 0x0351, 0x0361] ++
        (if s.params.pidMaxChars = none then [] else [0x0411])
    | .devGenerate => [0x0000, 0x0003, 0x0004]
    | .devSave => [0x0000, 0x0004]
    | _ => [0x0000] : List (BitVec 16))

/-- The layout of the status word: 0 on success; of an error CLASS in 3:0, FIELD in 7:4 and REASON in 11:8 (both 0 but for a ValidationError),
15:12 zero; the class codes (30_encoding.md R71, R72). -/
def Obligations.StatusWordLayout : Prop :=
  statusOk = 0x0000 ∧
  ∀ e : CommandError,
    (errorStatus e).extractLsb' 12 4 = 0 ∧
    match e with
    | .validation f r => (errorStatus e).extractLsb' 0 4 = 1 ∧ (errorStatus e).extractLsb' 4 4 = fieldCode f ∧
        (errorStatus e).extractLsb' 8 4 = reasonCode r
    | .checksum => errorStatus e = 0x0002
    | .overflow => errorStatus e = 0x0003
    | .state => errorStatus e = 0x0004
    | .illegalCommand => errorStatus e = 0x0005

/-- An error changes nothing but `status`: an empty result bundle, no other register, whatever the command, an illegal word
included (60_exceptions.md R201). -/
def Obligations.ErrorsLeaveNothingBehind : Prop :=
  ∀ (s t : State), (illegalCommand s = .next t ∨ ∃ i, exec i s = .next t) → t.status ≠ 0x0000 →
    ∃ calls : List PortCall, t = { s with status := t.status, responses := ⟨t.status, .empty, calls⟩ :: s.responses }

/-- Which command calls which port: the clock only `DEV_CREATE` and `DEV_GENERATE` on success, the random port only where the
operand is absent, `AES_ENC` only `TOK_ENCRYPT` and `DEV_GENERATE`, `AES_DEC` only `TOK_PARSE` (60_exceptions.md R210, R211,
R212). -/
def Obligations.PortCallsByCommand : Prop :=
  ∀ (i : Instr) (s t : State) (r : Response), exec i s = .next t → t.responses = r :: s.responses →
    match i with
    | .tokPack _ _ _ _ random => r.calls = if random.isSome then [] else [.randomBits 16]
    | .tokEncrypt pt key => r.calls = [.aesEnc key pt]
    | .tokParse key otp => r.calls = [] ∧ (t.status = 0x0481 ∨ t.status = 0x0281) ∨
        ∃ ct, mhxBlock (otp.drop (otp.length - 32)) = some ct ∧ r.calls = [.aesDec key ct]
    | .devCreate _ _ _ _ ts _ => r.calls = if t.status = 0x0000 then
        (if ts.isSome then [] else [.randomRange 0 (2 ^ 24 - s.params.tsMargin)]) ++ [.clockNow] else []
    | .devGenerate random => if t.status = 0x0000 then
        ∃ d, s.dev = some d ∧ r.calls = [.clockElapsed8 d.poweron] ++
          (if random.isSome then [] else [.randomBits 16]) ++ [.aesEnc d.aesKey (pack (generateFields d random s.ports))]
        else r.calls = []
    | _ => r.calls = []

/-- No command but `DEV_SAVE` reads out `private_id` or `aes_key`: with other secrets in the registers every other command
answers the same, `DEV_GENERATE` on its errors included; where `DEV_GENERATE` succeeds, its OTP is the public ID and the
modhex of `AES_ENC` of the plaintext, under the key in the register, so that the secrets reach it through the cipher only
(60_exceptions.md R209, 10_state.md R26). -/
def Obligations.SecretsLeaveOnlyInTheRecord : Prop :=
  ∀ (s : State) (r : DeviceRegs) (pid : Bytes6) (key : Bytes16), s.dev = some r →
    (∀ i : Instr, i ≠ .devSave → i.opcode ≠ .devGenerate →
      reply i { s with dev := some { r with privateId := pid, aesKey := key } } = reply i s) ∧
    ∀ random : Option (BitVec 16),
      (s.fsmState ≠ .created ∨ 0xFF < r.sessionCounter.toNat →
        reply (.devGenerate random) { s with dev := some { r with privateId := pid, aesKey := key } } =
          reply (.devGenerate random) s) ∧
      (s.fsmState = .created → r.sessionCounter.toNat ≤ 0xFF →
        reply (.devGenerate random) s = some (0x0000, .otp
          (r.publicId ++ mhxEncode (aesEnc r.aesKey (pack (generateFields r random s.ports))).val)) ∧
        reply (.devGenerate random) { s with dev := some { r with privateId := pid, aesKey := key } } = some (0x0000, .otp
          (r.publicId ++ mhxEncode (aesEnc key (pack { generateFields r random s.ports with privateId := pid })).val)))

/-! ## Sessions -/

/-- After a successful `DEV_CREATE` with `session_counter = s0`, any `N <= 256 - s0` generations succeed, and their OTPs
parse to the session fields `s0, s0 + 1, ..., s0 + N - 1` in order (43_device.md R177). -/
def Obligations.SessionFieldsCountUp : Prop :=
  ∀ (pid : Str) (i6 k : Bytes) (u : BitVec 32) (ts : Option (BitVec 32)) (n : BitVec 32) (s₀ s : State)
    (gs : List Generation) (rest : List HostEvent),
    exec (.devCreate pid i6 k u ts n) s₀ = .next s → s.status = 0x0000 → gs.length ≤ 256 - n.toNat →
    ∃ (t : State) (key : Bytes16) (rs : List Response), key.val = k ∧
      Sys2Proof.core.run gs.length { s with pending := gs.map generateEvent ++ rest } = .next t ∧
      t.responses = rs.reverse ++ s.responses ∧ rs.length = gs.length ∧
      ∀ (j : Nat) (r : Response), rs[j]? = some r → ∃ (otp : Str) (f : TokenFields),
        r.status = 0x0000 ∧ r.results = .otp otp ∧
        (∀ v : State, reply (.tokParse key otp) v = some (0x0000, .parsed pid f)) ∧
        f.sessionCounter.toNat = n.toNat + j ∧ f.usageCounter.toNat = u.toNat

/-- After a successful `DEV_CREATE` with `session_counter = s0`, exactly `256 - s0` generations succeed; every later one
reports OverflowError and leaves every register and the record a save would emit as they were (43_device.md R178). -/
def Obligations.OverflowAtTheSessionCeiling : Prop :=
  ∀ (pid : Str) (i6 k : Bytes) (u : BitVec 32) (ts : Option (BitVec 32)) (n : BitVec 32) (s₀ s : State)
    (gs more : List Generation) (rest : List HostEvent),
    exec (.devCreate pid i6 k u ts n) s₀ = .next s → s.status = 0x0000 → gs.length = 256 - n.toNat →
    ∃ (t : State) (rs : List Response),
      Sys2Proof.core.run gs.length
        { s with pending := gs.map generateEvent ++ (more.map generateEvent ++ rest) } = .next t ∧
      t.responses = rs.reverse ++ s.responses ∧ rs.length = gs.length ∧ (∀ r ∈ rs, r.status = 0x0000) ∧
      ∃ v : State, Sys2Proof.core.run more.length t = .next v ∧
        v.responses = List.replicate more.length ⟨0x0003, .empty, []⟩ ++ t.responses ∧
        v.dev = t.dev ∧ v.fsmState = t.fsmState ∧ reply .devSave v = reply .devSave t

/-- Over a chain of sessions in which the host saves every session that generated an OTP and loads each session from the
record the last save emitted, the counter pairs of all the OTPs strictly increase in lexicographic order, under either bump
rule (43_device.md R181). -/
def Obligations.CounterPairsIncreaseAcrossSessions : Prop :=
  ∀ (plans : List SessionPlan) (rec : Record) (s : State) (pairs : List (Nat × Nat)),
    chainPairs plans rec s = some pairs →
    pairs.Pairwise fun a b => a.1 < b.1 ∨ (a.1 = b.1 ∧ a.2 < b.2)

/-- The usage ceiling: a record of 0x7FFF loads; if its session generated an OTP and is saved, the record carries 0x8000,
which a load rejects with 0x0341 (70_reset_and_hazards.md R241, 43_device.md R175). -/
def Obligations.UsageCounterCeiling : Prop :=
  ∀ (s : State) (r : DeviceRegs), s.Inv → s.fsmState = .created → s.dev = some r → r.usageCounter = 0x7FFF →
    r.generated = true → (s.params.saveBumpRule = .counterGtZero → 0 < r.sessionCounter.toNat) →
    ∃ rec : Record, reply .devSave s = some (0x0000, .record rec) ∧ rec.usageCounter = 0x8000 ∧
      ∀ (u : State) (ts : Option (BitVec 32)) (n : BitVec 32), u.params = s.params →
        reply (devLoad rec ts n) u = some (0x0341, .empty) ∧
        reply (devLoad { rec with usageCounter := 0x7FFF } none 0) u = some (0x0000, .empty)

/-- `DEV_LOAD` of the record of a save whose counter is in range starts a fresh session of the same identity: the session
counter 0, `generated` 0, a new `poweron` (30_encoding.md R76, 43_device.md R170). -/
def Obligations.LoadRestoresTheSavedIdentity : Prop :=
  ∀ (s : State) (r : DeviceRegs) (rec : Record), s.Inv → s.fsmState = .created → s.dev = some r →
    reply .devSave s = some (0x0000, .record rec) → rec.usageCounter.toNat ≤ 0x7FFF →
    ∀ v : State, v.params = s.params → ∃ t r', exec (devLoad rec) v = .next t ∧ t.status = 0x0000 ∧
      t.fsmState = .created ∧ t.dev = some r' ∧ identity r' = identity r ∧
      r'.usageCounter = rec.usageCounter ∧ r'.sessionCounter = 0 ∧ r'.generated = false ∧ r'.poweron = v.ports.now

/-- `TOK_MAKE` expands to pack, encrypt and format: three responses, the last one the OTP of the fields, with no device
register read or written (30_encoding.md R76). -/
def Obligations.TokMakeIsPackEncryptFormat : Prop :=
  ∀ (m : TokMake) (s : State), ∃ (pt ct : Bytes16) (otp : Str) (c₁ c₂ c₃ : List PortCall),
    reply (tokMakePack m) s = some (0x0000, .plaintext pt) ∧
    reply (tokMakeEncrypt m pt) s = some (0x0000, .ciphertext ct) ∧
    reply (tokMakeFormat m ct) s = some (0x0000, .otp otp) ∧
    runTokMake m s = .next { s with
      status := 0x0000
      responses := ⟨0x0000, .otp otp, c₃⟩ :: ⟨0x0000, .ciphertext ct, c₂⟩ :: ⟨0x0000, .plaintext pt, c₁⟩ :: s.responses }

/-- The example line of R75 assembles to word 0x0140 with `usage_counter = 0` and `session_counter = 0`, and so do a line
without `timestamp`, to 0x0040, and one with a missing operand, to a syntax error (30_encoding.md R75). -/
def Obligations.AssemblyOfTheExampleLine : Prop :=
  assemble ("DEV_CREATE public_id=\"vvccccbbcccc\", private_id=x\"112233445566\", " ++
      "aes_key=x\"000102030405060708090a0b0c0d0e0f\", timestamp=0x010203") =
    some (0x0140, {
      publicId := [0x76, 0x76, 0x63, 0x63, 0x63, 0x63, 0x62, 0x62, 0x63, 0x63, 0x63, 0x63]
      createPrivateId := [0x11, 0x22, 0x33, 0x44, 0x55, 0x66]
      createAesKey := [0x00, 0x01, 0x02, 0x03, 0x04, 0x05, 0x06, 0x07, 0x08, 0x09, 0x0A, 0x0B, 0x0C, 0x0D, 0x0E, 0x0F]
      createTimestamp := 0x010203 }) ∧
  (assemble "DEV_CREATE public_id=\"\", private_id=x\"\", aes_key=x\"\"").map (·.1) = some 0x0040 ∧
  assemble "DEV_CREATE public_id=\"\", private_id=x\"\"" = none
end

