-- ==== Sys2Proof/Laws/State.lean ====
section
/-! SUPPORT. One lemma per field per state update, so that no proof unfolds an update. -/

namespace Sys2Proof.Machine

variable (s : State)

@[simp] theorem dequeue_fsmState (rest : List HostEvent) : (s.dequeue rest).fsmState = s.fsmState := rfl
@[simp] theorem dequeue_dev (rest : List HostEvent) : (s.dequeue rest).dev = s.dev := rfl
@[simp] theorem dequeue_status (rest : List HostEvent) : (s.dequeue rest).status = s.status := rfl
@[simp] theorem dequeue_params (rest : List HostEvent) : (s.dequeue rest).params = s.params := rfl
@[simp] theorem dequeue_ports (rest : List HostEvent) : (s.dequeue rest).ports = s.ports := rfl
@[simp] theorem dequeue_pending (rest : List HostEvent) : (s.dequeue rest).pending = rest := rfl
@[simp] theorem dequeue_responses (rest : List HostEvent) : (s.dequeue rest).responses = s.responses := rfl

@[simp] theorem accept_fsmState (t : Transaction) (rest : List HostEvent) : (s.accept t rest).fsmState = s.fsmState := rfl
@[simp] theorem accept_dev (t : Transaction) (rest : List HostEvent) : (s.accept t rest).dev = s.dev := rfl
@[simp] theorem accept_status (t : Transaction) (rest : List HostEvent) : (s.accept t rest).status = s.status := rfl
@[simp] theorem accept_params (t : Transaction) (rest : List HostEvent) : (s.accept t rest).params = s.params := rfl
@[simp] theorem accept_ports (t : Transaction) (rest : List HostEvent) : (s.accept t rest).ports = t.answers := rfl
@[simp] theorem accept_pending (t : Transaction) (rest : List HostEvent) : (s.accept t rest).pending = rest := rfl
@[simp] theorem accept_responses (t : Transaction) (rest : List HostEvent) : (s.accept t rest).responses = s.responses := rfl

@[simp] theorem respond_fsmState (r : Response) : (s.respond r).fsmState = s.fsmState := rfl
@[simp] theorem respond_dev (r : Response) : (s.respond r).dev = s.dev := rfl
@[simp] theorem respond_status (r : Response) : (s.respond r).status = r.status := rfl
@[simp] theorem respond_params (r : Response) : (s.respond r).params = s.params := rfl
@[simp] theorem respond_ports (r : Response) : (s.respond r).ports = s.ports := rfl
@[simp] theorem respond_pending (r : Response) : (s.respond r).pending = s.pending := rfl
@[simp] theorem respond_responses (r : Response) : (s.respond r).responses = r :: s.responses := rfl

@[simp] theorem withRegs_fsmState (r : DeviceRegs) : (s.withRegs r).fsmState = s.fsmState := rfl
@[simp] theorem withRegs_dev (r : DeviceRegs) : (s.withRegs r).dev = some r := rfl
@[simp] theorem withRegs_status (r : DeviceRegs) : (s.withRegs r).status = s.status := rfl
@[simp] theorem withRegs_params (r : DeviceRegs) : (s.withRegs r).params = s.params := rfl
@[simp] theorem withRegs_ports (r : DeviceRegs) : (s.withRegs r).ports = s.ports := rfl
@[simp] theorem withRegs_pending (r : DeviceRegs) : (s.withRegs r).pending = s.pending := rfl
@[simp] theorem withRegs_responses (r : DeviceRegs) : (s.withRegs r).responses = s.responses := rfl

@[simp] theorem withFsm_fsmState (f : FsmState) : (s.withFsm f).fsmState = f := rfl
@[simp] theorem withFsm_dev (f : FsmState) : (s.withFsm f).dev = s.dev := rfl
@[simp] theorem withFsm_status (f : FsmState) : (s.withFsm f).status = s.status := rfl
@[simp] theorem withFsm_params (f : FsmState) : (s.withFsm f).params = s.params := rfl
@[simp] theorem withFsm_ports (f : FsmState) : (s.withFsm f).ports = s.ports := rfl
@[simp] theorem withFsm_pending (f : FsmState) : (s.withFsm f).pending = s.pending := rfl
@[simp] theorem withFsm_responses (f : FsmState) : (s.withFsm f).responses = s.responses := rfl

@[simp] theorem withFetchWord_fsmState (nbits w : Nat) : (s.withFetchWord nbits w).fsmState = s.fsmState := rfl
@[simp] theorem withFetchWord_dev (nbits w : Nat) : (s.withFetchWord nbits w).dev = s.dev := rfl
@[simp] theorem withFetchWord_status (nbits w : Nat) : (s.withFetchWord nbits w).status = s.status := rfl
@[simp] theorem withFetchWord_params (nbits w : Nat) : (s.withFetchWord nbits w).params = s.params := rfl
@[simp] theorem withFetchWord_ports (nbits w : Nat) : (s.withFetchWord nbits w).ports = s.ports := rfl
@[simp] theorem withFetchWord_pending (nbits w : Nat) : (s.withFetchWord nbits w).pending = .command (tableTransaction nbits w) :: s.pending := rfl
@[simp] theorem withFetchWord_responses (nbits w : Nat) : (s.withFetchWord nbits w).responses = s.responses := rfl

@[simp] theorem powerOnReset_fsmState : (powerOnReset s).fsmState = .uninit := rfl
@[simp] theorem powerOnReset_dev : (powerOnReset s).dev = none := rfl
@[simp] theorem powerOnReset_status : (powerOnReset s).status = 0x0000 := rfl
@[simp] theorem powerOnReset_params : (powerOnReset s).params = s.params := rfl
@[simp] theorem powerOnReset_ports : (powerOnReset s).ports = s.ports := rfl
@[simp] theorem powerOnReset_pending : (powerOnReset s).pending = s.pending := rfl
@[simp] theorem powerOnReset_responses : (powerOnReset s).responses = s.responses := rfl

@[simp] theorem statusOk_eq : statusOk = 0x0000 := by decide

@[simp] theorem afterGenerate_publicId (r : DeviceRegs) : (afterGenerate r).publicId = r.publicId := rfl
@[simp] theorem afterGenerate_privateId (r : DeviceRegs) : (afterGenerate r).privateId = r.privateId := rfl
@[simp] theorem afterGenerate_aesKey (r : DeviceRegs) : (afterGenerate r).aesKey = r.aesKey := rfl
@[simp] theorem afterGenerate_usageCounter (r : DeviceRegs) : (afterGenerate r).usageCounter = r.usageCounter := rfl
@[simp] theorem afterGenerate_tsSeed (r : DeviceRegs) : (afterGenerate r).tsSeed = r.tsSeed := rfl
@[simp] theorem afterGenerate_sessionCounter (r : DeviceRegs) :
    (afterGenerate r).sessionCounter = r.sessionCounter + 1 := rfl
@[simp] theorem afterGenerate_generated (r : DeviceRegs) : (afterGenerate r).generated = true := rfl
@[simp] theorem afterGenerate_poweron (r : DeviceRegs) : (afterGenerate r).poweron = r.poweron := rfl

end Sys2Proof.Machine
end

