-- ==== Sys2Proof/Laws/Ops.lean ====
section
/-! SUPPORT. What each shared operation can do, said once: the lemmas a proof cites instead of unfolding the operation. -/

namespace Sys2Proof.Machine

@[simp] theorem complete_eq (results : Results) (calls : List PortCall) (s : State) :
    complete results calls s = .next (s.respond ⟨0x0000, results, calls⟩) := by
  simp [complete]

@[simp] theorem raiseError_eq (e : CommandError) (calls : List PortCall) (s : State) :
    raiseError e calls s = .next (s.respond ⟨errorStatus e, .empty, calls⟩) := rfl

@[simp] theorem illegalCommand_eq (s : State) :
    illegalCommand s = .next (s.respond ⟨0x0005, .empty, []⟩) := by
  simp [illegalCommand, errorStatus, statusWord]

/-- The status words of the errors that are not a ValidationError (30_encoding.md R72). -/
@[simp] theorem errorStatus_checksum : errorStatus .checksum = 0x0002 := by decide
@[simp] theorem errorStatus_overflow : errorStatus .overflow = 0x0003 := by decide
@[simp] theorem errorStatus_state : errorStatus .state = 0x0004 := by decide
@[simp] theorem errorStatus_illegalCommand : errorStatus .illegalCommand = 0x0005 := by decide

theorem errorStatus_ne_zero (e : CommandError) : errorStatus e ≠ 0x0000 := by
  cases e with
  | validation f r => cases f <;> cases r <;> decide
  | _ => decide

/-- Everything `withInstance` can do. -/
theorem withInstance_cases (s : State) (k : DeviceRegs → Host.Outcome State Fault Refusal) :
    (∃ r, s.fsmState = .created ∧ s.dev = some r ∧ withInstance s k = k r) ∨
      ((s.fsmState ≠ .created ∨ s.dev = none) ∧ withInstance s k = .next (s.respond ⟨0x0004, .empty, []⟩)) := by
  unfold withInstance
  cases s.fsmState <;> cases s.dev <;> simp

theorem withInstance_created {s : State} {r : DeviceRegs} (hf : s.fsmState = .created) (hd : s.dev = some r)
    (k : DeviceRegs → Host.Outcome State Fault Refusal) : withInstance s k = k r := by
  simp [withInstance, hf, hd]

theorem withInstance_stateError {s : State} (h : s.fsmState ≠ .created ∨ s.dev = none)
    (k : DeviceRegs → Host.Outcome State Fault Refusal) :
    withInstance s k = .next (s.respond ⟨0x0004, .empty, []⟩) := by
  rcases withInstance_cases s k with ⟨r, hf, hd, -⟩ | ⟨-, he⟩
  · simp [hf, hd] at h
  · exact he

/-- A transaction ends in a next state through an illegal word or through its command. -/
theorem runTransaction_next {tr : Transaction} {s t : State} (h : runTransaction tr s = .next t) :
    carriable s.params tr.operands = true ∧
      ((∃ e, decode tr.word tr.operands = .error e ∧ t = s.respond ⟨0x0005, .empty, []⟩) ∨
        ∃ i, decode tr.word tr.operands = .ok i ∧ exec i s = .next t) := by
  unfold runTransaction at h
  split at h
  · next hc =>
    refine ⟨hc, ?_⟩
    split at h
    · next e he => exact .inl ⟨e, he, by simpa using h.symm⟩
    · next i hi => exact .inr ⟨i, hi, h⟩
  · cases h

/-- Everything a step that answers can have done. -/
theorem step_next {s t : State} (h : step s = .next t) :
    (s.pending = [] ∧ t = s) ∨
      (∃ rest, s.pending = .powerOn :: rest ∧ t = powerOnReset (s.dequeue rest)) ∨
      ∃ tr rest, s.pending = .command tr :: rest ∧ runTransaction tr (s.accept tr rest) = .next t := by
  unfold step at h
  split at h
  · next hp => exact .inl ⟨hp, by simpa using h.symm⟩
  · next rest hp => exact .inr (.inl ⟨rest, hp, by simpa using h.symm⟩)
  · next tr rest hp => exact .inr (.inr ⟨tr, rest, hp, h⟩)

end Sys2Proof.Machine
end

