-- ==== Sys2Proof/Laws/Codec.lean ====
section
/-! SUPPORT. The codec functions: lengths, modhex of one nibble, the CRC of a concatenation, fixed widths. -/

namespace Sys2Proof.Machine

theorem opcodeOf_eq_some (opc : BitVec 8) (op : Opcode) : opcodeOf opc = some op ↔ op.opc = opc := by
  constructor
  · intro h
    have := List.find?_some h
    simpa using this
  · rintro rfl
    cases op <;> decide

/-- A word built from a row and presence bits it allows selects that row, and its bits read back. -/
theorem decodeWord_commandWord {op : Opcode} {tsp rndp : Bool} (ht : tsp = true → op.allowsTsp = true)
    (hr : rndp = true → op.allowsRndp = true) :
    decodeWord (commandWord op.opc tsp rndp) = .ok op ∧ tspOf (commandWord op.opc tsp rndp) = tsp ∧
      rndpOf (commandWord op.opc tsp rndp) = rndp := by
  cases op <;> cases tsp <;> cases rndp <;> first | decide | (exfalso; revert ht hr; decide)

@[simp] theorem asBytesN_val {n : Nat} (b : BytesN n) : asBytesN n b.val = some b := by
  simp [asBytesN, b.property]

theorem asBytesN_eq_some {n : Nat} {b : Bytes} {v : BytesN n} : asBytesN n b = some v ↔ v.val = b := by
  unfold asBytesN
  split
  · next h => simp [Subtype.ext_iff, eq_comm]
  · next h =>
    constructor
    · intro h'; cases h'
    · intro h'; exact absurd (h' ▸ v.property) h

theorem asBytesN_eq_none {n : Nat} {b : Bytes} : asBytesN n b = none ↔ b.length ≠ n := by
  unfold asBytesN
  split <;> simp_all

@[simp] theorem mhxVal_mhxChar (n : BitVec 4) : mhxVal (mhxChar n) = some n := by
  revert n; decide

@[simp] theorem mhxEncode_length (b : Bytes) : (mhxEncode b).length = 2 * b.length := by
  induction b with
  | nil => rfl
  | cons x rest ih => simp [mhxEncode, ih]; omega

theorem mhxEncode_append (a b : Bytes) : mhxEncode (a ++ b) = mhxEncode a ++ mhxEncode b := by
  induction a with
  | nil => rfl
  | cons x rest ih => simp [mhxEncode, ih]

theorem nibbles_append (b : Byte) : (b.extractLsb' 4 4 ++ b.extractLsb' 0 4 : BitVec 8) = b := by
  revert b; decide

/-- The decoder inverts the encoder. -/
@[simp] theorem mhxDecode_mhxEncode (b : Bytes) : mhxDecode (mhxEncode b) = some b := by
  induction b with
  | nil => rfl
  | cons x rest ih => simp [mhxEncode, mhxDecode, ih, nibbles_append]

theorem crcFrom_append (init : BitVec 16) (a b : Bytes) : crcFrom init (a ++ b) = crcFrom (crcFrom init a) b := by
  simp [crcFrom]

@[simp] theorem crcFrom_nil (init : BitVec 16) : crcFrom init [] = init := rfl

@[simp] theorem formatOtp_length (publicId : Str) (ct : Bytes16) :
    (formatOtp publicId ct).length = publicId.length + 32 := by
  simp [formatOtp, ct.property]

@[simp] theorem aesDec_aesEnc (key block : Bytes16) : aesDec key (aesEnc key block) = block := by
  simp [aesDec, aesEnc]

theorem randomRange_le {lo hi : Nat} (h : lo ≤ hi) (a : PortAnswers) : randomRange lo hi a ≤ hi := by
  have := Nat.mod_lt a.random (show 0 < hi - lo + 1 by omega)
  unfold randomRange
  omega

end Sys2Proof.Machine
end

