-- ==== Sys2Proof/Laws/PerInstr.lean ====
section
/-! SUPPORT. Facts made per command, one lemma per constructor of Instr. -/

namespace Sys2Proof.Laws.Carriable

open Sys2Proof.Machine

/-- The bundle of a command can be carried exactly if the command is well formed (30_encoding.md R78). -/
def Statement (i : Instr) : Prop :=
  ∀ p : Config.Params, carriable p (encodeOperands i) = i.wf p

theorem fits_zero (p : Config.Params) : p.fits 0 = true := by
  simp [Config.Params.fits]

theorem mhxEnc (data : Bytes) : Statement (.mhxEnc data) := fun p => by
  simp [carriable, encodeOperands, Instr.wf, Instr.byteStringLengths, fits_zero]
theorem mhxDec (text : Str) : Statement (.mhxDec text) := fun p => by
  simp [carriable, encodeOperands, Instr.wf, Instr.byteStringLengths, fits_zero]
theorem mhxValid (text : Str) : Statement (.mhxValid text) := fun p => by
  simp [carriable, encodeOperands, Instr.wf, Instr.byteStringLengths, fits_zero]
theorem crc16 (data : Bytes) : Statement (.crc16 data) := fun p => by
  simp [carriable, encodeOperands, Instr.wf, Instr.byteStringLengths, fits_zero]
theorem crcVerify (data : Bytes) : Statement (.crcVerify data) := fun p => by
  simp [carriable, encodeOperands, Instr.wf, Instr.byteStringLengths, fits_zero]
theorem crcField (data : Bytes) : Statement (.crcField data) := fun p => by
  simp [carriable, encodeOperands, Instr.wf, Instr.byteStringLengths, fits_zero]
theorem tokPack (pid : Bytes6) (u : BitVec 16) (t : BitVec 24) (n : BitVec 8) (r : Option (BitVec 16)) :
    Statement (.tokPack pid u t n r) := fun p => by
  simp [carriable, encodeOperands, Instr.wf, Instr.byteStringLengths, fits_zero]
theorem tokUnpack (pt : Bytes16) : Statement (.tokUnpack pt) := fun p => by
  simp [carriable, encodeOperands, Instr.wf, Instr.byteStringLengths, fits_zero]
theorem tokEncrypt (pt k : Bytes16) : Statement (.tokEncrypt pt k) := fun p => by
  simp [carriable, encodeOperands, Instr.wf, Instr.byteStringLengths, fits_zero]
theorem tokFormat (pid : Str) (ct : Bytes16) : Statement (.tokFormat pid ct) := fun p => by
  simp [carriable, encodeOperands, Instr.wf, Instr.byteStringLengths, fits_zero]
theorem tokParse (k : Bytes16) (otp : Str) : Statement (.tokParse k otp) := fun p => by
  simp [carriable, encodeOperands, Instr.wf, Instr.byteStringLengths, fits_zero]
theorem devCreate (pid : Str) (i6 k : Bytes) (u : BitVec 32) (t : Option (BitVec 32)) (n : BitVec 32) :
    Statement (.devCreate pid i6 k u t n) := fun p => by
  simp [carriable, encodeOperands, Instr.wf, Instr.byteStringLengths, fits_zero, Bool.and_assoc]
theorem devGenerate (r : Option (BitVec 16)) : Statement (.devGenerate r) := fun p => by
  simp [carriable, encodeOperands, Instr.wf, Instr.byteStringLengths, fits_zero]
theorem devSave : Statement .devSave := fun p => by
  simp [carriable, encodeOperands, Instr.wf, Instr.byteStringLengths, fits_zero]

end Sys2Proof.Laws.Carriable
end

