-- ==== Sys2Proof/Tests/Slice0.lean ====
section
/-! SUPPORT. The model's own tests and the witnesses of its statements. Expected results come from the spec's rules and from
95_test_vectors.md, cited by row; none is the model's own output. A vector that depends on AES takes the vector's cipher value
as a named premise (60_exceptions.md R212). -/

namespace Sys2Proof.Tests

open Sys2Proof.Machine

set_option maxRecDepth 100000

/-! ## Small helpers -/

/-- Bytes from hexadecimal digits, as 95_test_vectors.md writes them. -/
def hex (s : String) : Bytes := (hexBytes s.toList).getD []

/-- Bytes from characters. -/
def str (s : String) : Str := (asciiCodes s.toList).getD []

/-- A 6-byte string from hexadecimal digits. -/
def b6 (s : String) : Bytes6 := (asBytesN 6 (hex s)).getD (BytesN.zeros 6)

/-- A 16-byte string from hexadecimal digits. -/
def b16 (s : String) : Bytes16 := (asBytesN 16 (hex s)).getD (BytesN.zeros 16)

/-- `K` of 95_test_vectors.md. -/
def keyK : Bytes16 := b16 "000102030405060708090a0b0c0d0e0f"
/-- `I` of 95_test_vectors.md. -/
def idI : Bytes6 := b6 "112233445566"
/-- `P` of 95_test_vectors.md. -/
def pidP : Str := str "vvccccbbcccc"

/-- Port answers. -/
def answers (now : Nat) (elapsed : Int) (random : Nat) : PortAnswers := ⟨⟨now⟩, elapsed, random⟩

/-- The registers of an instance with identity `P`, `I`, `K`. -/
def regs (usage : BitVec 16) (seed : BitVec 24) (session : BitVec 9) (generated : Bool) : DeviceRegs :=
  ⟨pidP, idI, keyK, usage, seed, session, generated, ⟨7⟩⟩

/-- A state with an instance. -/
def stateWith (f : FsmState) (r : DeviceRegs) : State := { State.reset with fsmState := f, dev := some r }

/-- The parameters with a limit on operands of 4 bytes. -/
def shortOperands : Config.Params := { maxOperandBytes := some 4 }

/-- `DEV_CREATE` of `P`, `I`, `K`. -/
def create (usage : BitVec 32) (ts : Option (BitVec 32)) (session : BitVec 32) : Instr :=
  .devCreate pidP idI.val keyK.val usage ts session

/-- The status of a command, if it answers. -/
def statusOf (i : Instr) (s : State) : Option (BitVec 16) := (reply i s).map (·.1)

/-- The registers after a command, if it answers. -/
def regsAfter (i : Instr) (s : State) : Option DeviceRegs :=
  match exec i s with
  | .next t => t.dev
  | _ => none

/-- The state name after a command, if it answers. -/
def fsmAfter (i : Instr) (s : State) : Option FsmState :=
  match exec i s with
  | .next t => some t.fsmState
  | _ => none

/-- The status, the state name and the registers after a step, if the block answers. -/
def afterStep (s : State) : Option (BitVec 16 × FsmState × Option DeviceRegs) :=
  match step s with
  | .next t => some (t.status, t.fsmState, t.dev)
  | _ => none

/-! ## WellFormed: an ill-formed command for each check, refused (30_encoding.md R78) -/

theorem test_wf_mhxEnc : (Instr.mhxEnc (hex "0011223344")).wf shortOperands = false := by decide
theorem test_wf_mhxDec : (Instr.mhxDec (str "ccccc")).wf shortOperands = false := by decide
theorem test_wf_mhxValid : (Instr.mhxValid (str "ccccc")).wf shortOperands = false := by decide
theorem test_wf_crc16 : (Instr.crc16 (hex "0011223344")).wf shortOperands = false := by decide
theorem test_wf_crcVerify : (Instr.crcVerify (hex "0011223344")).wf shortOperands = false := by decide
theorem test_wf_crcField : (Instr.crcField (hex "0011223344")).wf shortOperands = false := by decide
theorem test_wf_tokFormat : (Instr.tokFormat (str "ccccc") keyK).wf shortOperands = false := by decide
theorem test_wf_tokParse : (Instr.tokParse keyK (str "ccccc")).wf shortOperands = false := by decide
theorem test_wf_devCreate_public : (Instr.devCreate (str "ccccc") [] [] 0 none 0).wf shortOperands = false := by decide
theorem test_wf_devCreate_private : (Instr.devCreate [] (hex "0011223344") [] 0 none 0).wf shortOperands = false := by decide
theorem test_wf_devCreate_key : (Instr.devCreate [] [] (hex "0011223344") 0 none 0).wf shortOperands = false := by decide
/-- At the limit a byte string is carried, and fixed-width operands are never refused. -/
theorem test_wf_at_limit : (Instr.mhxEnc (hex "00112233")).wf shortOperands = true ∧
    (Instr.tokUnpack keyK).wf shortOperands = true ∧ Instr.devSave.wf shortOperands = true := by decide

/-! ## Decode: each word written out from 30_encoding.md R61 and R62, as RSVD ++ RNDP ++ TSP ++ OPC -/

/-- A bundle with a different value in every lane. -/
def lanes : Operands where
  data := [1]
  text := [2]
  publicId := [3]
  otp := [4]
  privateId := b6 "050505050505"
  aesKey := b16 "06060606060606060606060606060606"
  plaintext := b16 "07070707070707070707070707070707"
  ciphertext := b16 "08080808080808080808080808080808"
  usageCounter := 9
  timestamp := 10
  sessionCounter := 11
  random := 12
  createPrivateId := [13]
  createAesKey := [14]
  createUsageCounter := 15
  createTimestamp := 16
  createSessionCounter := 17

theorem test_decode_mhxEnc : (decode 0b000000_0_0_00010000 lanes).toOption = some (.mhxEnc [1]) := by decide
theorem test_decode_mhxDec : (decode 0b000000_0_0_00010001 lanes).toOption = some (.mhxDec [2]) := by decide
theorem test_decode_mhxValid : (decode 0b000000_0_0_00010010 lanes).toOption = some (.mhxValid [2]) := by decide
theorem test_decode_crc16 : (decode 0b000000_0_0_00100000 lanes).toOption = some (.crc16 [1]) := by decide
theorem test_decode_crcVerify : (decode 0b000000_0_0_00100001 lanes).toOption = some (.crcVerify [1]) := by decide
theorem test_decode_crcField : (decode 0b000000_0_0_00100010 lanes).toOption = some (.crcField [1]) := by decide
theorem test_decode_tokPack : (decode 0b000000_0_0_00110000 lanes).toOption =
    some (.tokPack (b6 "050505050505") 9 10 11 none) := by decide
theorem test_decode_tokPack_random : (decode 0b000000_1_0_00110000 lanes).toOption =
    some (.tokPack (b6 "050505050505") 9 10 11 (some 12)) := by decide
theorem test_decode_tokUnpack : (decode 0b000000_0_0_00110001 lanes).toOption =
    some (.tokUnpack (b16 "07070707070707070707070707070707")) := by decide
theorem test_decode_tokEncrypt : (decode 0b000000_0_0_00110010 lanes).toOption =
    some (.tokEncrypt (b16 "07070707070707070707070707070707") (b16 "06060606060606060606060606060606")) := by decide
theorem test_decode_tokFormat : (decode 0b000000_0_0_00110011 lanes).toOption =
    some (.tokFormat [3] (b16 "08080808080808080808080808080808")) := by decide
theorem test_decode_tokParse : (decode 0b000000_0_0_00110100 lanes).toOption =
    some (.tokParse (b16 "06060606060606060606060606060606") [4]) := by decide
theorem test_decode_devCreate : (decode 0b000000_0_0_01000000 lanes).toOption =
    some (.devCreate [3] [13] [14] 15 none 17) := by decide
theorem test_decode_devCreate_timestamp : (decode 0b000000_0_1_01000000 lanes).toOption =
    some (.devCreate [3] [13] [14] 15 (some 16) 17) := by decide
theorem test_decode_devGenerate : (decode 0b000000_0_0_01000001 lanes).toOption = some (.devGenerate none) := by decide
theorem test_decode_devGenerate_random : (decode 0b000000_1_0_01000001 lanes).toOption =
    some (.devGenerate (some 12)) := by decide
theorem test_decode_devSave : (decode 0b000000_0_0_01000010 lanes).toOption = some .devSave := by decide

/-- W7 to W14: illegal words. -/
theorem test_decode_illegal : ([0x0050, 0x0110, 0x0340, 0x0141, 0x0430, 0x8010, 0x0000, 0x0013] : List (BitVec 16)).all
    (fun w => (decode w lanes).toOption.isNone) = true := by decide

/-- The host's reading of a table row, and a step on it from reset (W6; D14a gives its status). -/
theorem test_fetch_devSave : decodeTableWord 16 0x0042 = some .devSave ∧
    afterStep (State.reset.withFetchWord 16 0x0042) = some (0x0004, .uninit, none) := by decide

/-! ## ModHex (95_test_vectors.md M1 to M24) -/

theorem test_mhxEnc_M5 : reply (.mhxEnc (hex "0123456789abcdef")) State.reset =
    some (0x0000, .text (str "cbdefghijklnrtuv")) := by decide
theorem test_mhxEnc_M4 : reply (.mhxEnc (hex "00ff5aa5")) State.reset = some (0x0000, .text (str "ccvvgllg")) := by decide
theorem test_mhxDec_M16_M17 : reply (.mhxDec pidP) State.reset = some (0x0000, .data (hex "ff0000110000")) ∧
    reply (.mhxDec (str "VvCc")) State.reset = some (0x0000, .data (hex "ff00")) := by decide
/-- M10, M11, M14, M18: the odd length is reported first. -/
theorem test_mhxDec_errors : statusOf (.mhxDec (str "cbd")) State.reset = some 0x0171 ∧
    statusOf (.mhxDec (str "x")) State.reset = some 0x0171 ∧ statusOf (.mhxDec (str "a0")) State.reset = some 0x0271 ∧
    statusOf (.mhxDec (hex "e963")) State.reset = some 0x0271 := by decide
theorem test_mhxValid_M20_M24 : reply (.mhxValid []) State.reset = some (0x0000, .valid true) ∧
    reply (.mhxValid (str "c")) State.reset = some (0x0000, .valid false) ∧
    reply (.mhxValid (str "vvcccx")) State.reset = some (0x0000, .valid false) ∧
    reply (.mhxValid (str "VVCC")) State.reset = some (0x0000, .valid true) ∧
    reply (.mhxValid (str "0123")) State.reset = some (0x0000, .valid false) := by decide

/-! ## CRC-16 (C1 to C17) -/

theorem test_crc16_C5_C12 : reply (.crc16 (hex "80")) State.reset = some (0x0000, .crc 0x8B8F) ∧
    reply (.crc16 (str "123456789")) State.reset = some (0x0000, .crc 0x6F91) := by decide
theorem test_crc16_C8_C11 : crc16 (List.replicate 14 0x00) = 0x5695 ∧ crc16 (List.replicate 14 0xFF) = 0x84C3 ∧
    crc16 (List.replicate 16 0x00) = 0x5056 ∧ crc16 (List.replicate 16 0xFF) = 0xD256 := by decide
theorem test_crcVerify_C7_C15 :
    reply (.crcVerify (hex "1122334455660000030201003412b3db")) State.reset = some (0x0000, .ok true) ∧
    reply (.crcVerify (hex "1022334455660000030201003412b3db")) State.reset = some (0x0000, .ok false) := by decide
theorem test_crcField_C2_C6 : reply (.crcField (hex "00")) State.reset = some (0x0000, .field (hex "78f0")) ∧
    reply (.crcField (hex "1122334455660000030201003412")) State.reset = some (0x0000, .field (hex "b3db")) := by decide
/-- C16: bit 112 is bit 0 of byte 14. -/
theorem test_flipBit_C16 : flipBit 112 (hex "1122334455660000030201003412b3db") =
    hex "1122334455660000030201003412b2db" := by decide

/-! ## Token codec (T1 to T20) -/

theorem test_tokPack_T1 : reply (.tokPack idI 0 0x010203 0 (some 0x1234)) State.reset =
    some (0x0000, .plaintext (b16 "1122334455660000030201003412b3db")) := by decide
/-- P2 step 1: the random field is the port's answer. -/
theorem test_tokPack_draw : reply (.tokPack idI 0 0 0 none) State.reset =
    some (0x0000, .plaintext (b16 "1122334455660000000000000000ac3f")) ∧
    callsOf (.tokPack idI 0 0 0 none) State.reset = some [.randomBits 16] := by decide
theorem test_tokUnpack_T10 : reply (.tokUnpack (b16 "1122334455660000030201003412b3db")) State.reset =
    some (0x0000, .fields ⟨idI, 0, 0x010203, 0, 0x1234⟩) ∧
    reply (.tokUnpack (b16 "0000000000000080000000000000772f")) State.reset =
      some (0x0000, .fields ⟨b6 "000000000000", 0x8000, 0, 0, 0⟩) := by decide
theorem test_tokUnpack_T10a_T10b : reply (.tokUnpack (BytesN.zeros 16)) State.reset = some (0x0002, .empty) ∧
    reply (.tokUnpack (b16 "1122334455660000030201003412b3dc")) State.reset = some (0x0002, .empty) := by decide
/-- The ciphertext of T1 under `K`, with the cipher's value as premise. -/
theorem test_tokEncrypt_T5
    (aes : aesEnc keyK (b16 "1122334455660000030201003412b3db") = b16 "e52ac9e9176f3422d6c82215399df16f") :
    reply (.tokEncrypt (b16 "1122334455660000030201003412b3db") keyK) State.reset =
      some (0x0000, .ciphertext (b16 "e52ac9e9176f3422d6c82215399df16f")) := by
  simp [reply, exec, execTokEncrypt, aes]
theorem test_tokFormat_R145 : reply (.tokFormat pidP (b16 "e52ac9e9176f3422d6c82215399df16f")) State.reset =
    some (0x0000, .otp (str "vvccccbbccccugdlrkukbihvefddthrjddbgekktvbhv")) := by decide
/-- T14 and T15: the checks before the cipher is called. -/
theorem test_tokParse_T14_T15 : reply (.tokParse keyK (str "gdlrkukbihvefddthrjddbgekktvbhv")) State.reset =
    some (0x0481, .empty) ∧
    reply (.tokParse keyK (str "vvccccbbccccugdlrkukbihvefddthrjddbgekktvbhx")) State.reset = some (0x0281, .empty) ∧
    callsOf (.tokParse keyK (str "vvccccbbccccugdlrkukbihvefddthrjddbgekktvbhx")) State.reset = some [] := by decide
/-- T12: upper-case ciphertext characters are accepted and the prefix comes back verbatim. -/
theorem test_tokParse_T12
    (aes : aesDec keyK (b16 "e52ac9e9176f3422d6c82215399df16f") = b16 "1122334455660000030201003412b3db") :
    reply (.tokParse keyK (str "VVCCCCBBCCCCUGDLRKUKBIHVEFDDTHRJDDBGEKKTVBHV")) State.reset =
      some (0x0000, .parsed (str "VVCCCCBBCCCC") ⟨idI, 0, 0x010203, 0, 0x1234⟩) := by
  have h : mhxBlock (slice (str "VVCCCCBBCCCCUGDLRKUKBIHVEFDDTHRJDDBGEKKTVBHV") 12 44) =
      some (b16 "e52ac9e9176f3422d6c82215399df16f") := by decide
  have hl : (str "VVCCCCBBCCCCUGDLRKUKBIHVEFDDTHRJDDBGEKKTVBHV").length = 44 := by decide
  have hp : slice (str "VVCCCCBBCCCCUGDLRKUKBIHVEFDDTHRJDDBGEKKTVBHV") 0 12 = str "VVCCCCBBCCCC" := by decide
  have hu : unpack (b16 "1122334455660000030201003412b3db") = some ⟨idI, 0, 0x010203, 0, 0x1234⟩ := by decide
  simp [reply, exec, execTokParse, Config.ciphertextChars, hl, h, hp, hu, aes]

/-! ## Device (D1 to D29, P1 to P6) -/

theorem test_devCreate_D1_D9 : statusOf (.devCreate (str "vvc") idI.val keyK.val 0 none 0) State.reset = some 0x0111 ∧
    statusOf (.devCreate (str "vvcccx") (hex "1122334455") keyK.val 0 none 0) State.reset = some 0x0211 ∧
    statusOf (.devCreate pidP (hex "11223344556677") keyK.val 0 none 0) State.reset = some 0x0421 ∧
    statusOf (.devCreate pidP idI.val (hex "0001") 0 none 0) State.reset = some 0x0431 ∧
    statusOf (create 0x8000 none 0) State.reset = some 0x0341 ∧
    statusOf (create 0 (some 0x1000000) 0) State.reset = some 0x0351 ∧
    statusOf (create 0 none 0x100) State.reset = some 0x0361 ∧
    statusOf (create 0 none 0) { State.reset with params := { pidMaxChars := some 10 } } = some 0x0411 := by decide
/-- D13: the seed is the draw, and the command replaces a live instance (43_device.md R170). -/
theorem test_devCreate_D13 :
    regsAfter (create 7 none 5) { stateWith .created (regs 1 1 1 true) with ports := answers 3 0 0x0ABCDE } =
      some ⟨pidP, idI, keyK, 7, 0x0ABCDE, 5, false, ⟨3⟩⟩ := by decide
/-- D16: the call that emits 0xFF succeeds; D16a: the next one overflows. -/
theorem test_devGenerate_D16 :
    regsAfter (.devGenerate (some 0)) (stateWith .created (regs 0 0 0xFF false)) = some (regs 0 0 0x100 true) ∧
    statusOf (.devGenerate (some 0)) (stateWith .created (regs 0 0 0x100 true)) = some 0x0003 := by decide
/-- P3 step 2: the OTP of the registers, with the cipher's value as premise. -/
theorem test_devGenerate_P3
    (aes : aesEnc keyK (b16 "1122334455660500000010fe000043f7") = b16 "abe0b690ffb9bc46ee74b6e094038a0c") :
    reply (.devGenerate none) (stateWith .created (regs 5 0x100000 0xFE false)) =
      some (0x0000, .otp (str "vvccccbbcccclnucnhkcvvnknrfhuuifnhuckfcejlcr")) := by
  have hp : pack (generateFields (regs 5 0x100000 0xFE false) none State.reset.ports) =
      b16 "1122334455660500000010fe000043f7" := by decide
  have hs : ¬ Config.sessionMax < (regs 5 0x100000 0xFE false).sessionCounter.toNat := by decide
  have hf : formatOtp pidP (b16 "abe0b690ffb9bc46ee74b6e094038a0c") =
      str "vvccccbbcccclnucnhkcvvnknrfhuuifnhuckfcejlcr" := by decide
  have hk : (regs 5 0x100000 0xFE false).aesKey = keyK := rfl
  have hi : (regs 5 0x100000 0xFE false).publicId = pidP := rfl
  simp only [reply, exec, execDevGenerate, stateWith, withInstance, if_false, hs, hp, hk, hi, aes, hf,
    complete_eq, respond_responses, List.head?_cons, Option.map]
theorem test_devSave_D19_D21 :
    reply .devSave (stateWith .created (regs 7 0 5 false)) = some (0x0000, .record ⟨pidP, idI, keyK, 7⟩) ∧
    reply .devSave { stateWith .created (regs 7 0 5 false) with params := { saveBumpRule := .counterGtZero } } =
      some (0x0000, .record ⟨pidP, idI, keyK, 8⟩) ∧
    reply .devSave (stateWith .created (regs 7 0 6 true)) = some (0x0000, .record ⟨pidP, idI, keyK, 8⟩) := by decide
/-- D23 and P3 step 6: the save ends the instance and keeps its registers. -/
theorem test_devSave_D23 : fsmAfter .devSave (stateWith .created (regs 5 0 0x100 true)) = some .persisted ∧
    regsAfter .devSave (stateWith .created (regs 5 0 0x100 true)) = some (regs 5 0 0x100 true) ∧
    statusOf .devSave (stateWith .persisted (regs 5 0 0x100 true)) = some 0x0004 ∧
    statusOf (.devGenerate none) (stateWith .persisted (regs 5 0 0x100 true)) = some 0x0004 := by decide
/-- D24 to D29. -/
theorem test_liveTs : liveTs 0x010203 16 = 0x010213 ∧ liveTs 0xFFFFFE 3 = 0x000001 ∧ liveTs 0xF00000 0x0FFFFF = 0xFFFFFF ∧
    liveTs 0xF00000 0x100000 = 0x000000 ∧ liveTs 0x000002 (-5) = 0xFFFFFD := by decide
/-- P5 step 4: the record of 0x8000 is refused. -/
theorem test_devLoad_P5 : statusOf (devLoad ⟨pidP, idI, keyK, 0x8000⟩) (stateWith .persisted (regs 0x7FFF 0 1 true)) =
    some 0x0341 ∧ devLoad ⟨pidP, idI, keyK, 1⟩ = create 1 none 0 := by decide
/-- 30_encoding.md R75: operands in any order; an omitted required operand, a repeated one and a bad digit are errors. -/
theorem test_assemble : (assemble "TOK_FORMAT ciphertext=x\"e52ac9e9176f3422d6c82215399df16f\", public_id=\"vv\"").map (·.1) =
    some 0x0033 ∧ assemble "MHX_ENC" = none ∧ assemble "MHX_ENC data=x\"00\", data=x\"00\"" = none ∧
    assemble "MHX_ENC data=x\"0g\"" = none ∧ (assemble "DEV_GENERATE random=4660").map (·.2.random) = some 0x1234 := by decide

/-- Log entry 15: a literal ends at the first double quote, so an inner one is an error, and a byte literal writes it. -/
theorem test_assemble_quote : assemble "MHX_DEC text=\"a\"b\"" = none ∧ assemble "MHX_DEC text=\"a" = none ∧
    (assemble "MHX_DEC text=x\"6122\"").map (·.2.text) = some [0x61, 0x22] := by decide

/-! ## Witnesses: for each statement with hypotheses, a concrete case that meets all of them -/

/-- A host event that issues a command. -/
def issue (i : Instr) (a : PortAnswers) : HostEvent := .command ⟨encodeWord i, encodeOperands i, a⟩

/-- The block right after reset with one command pending. -/
def withCommand (w : BitVec 16) (o : Operands) : State :=
  { State.reset with pending := [.command ⟨w, o, answers 1 2 3⟩] }

/-- A live instance, used below as a state that meets the invariant. -/
def live : State := stateWith .created (regs 0x7FFF 0xF00000 0x100 true)

theorem regs_ok (u : BitVec 16) (seed : BitVec 24) (n : BitVec 9) (g : Bool) (hu : u.toNat ≤ 0x7FFF)
    (hn : n.toNat ≤ 0x100) (hg : g = false → n.toNat ≤ 0xFF) : (regs u seed n g).Ok Config.defaults :=
  ⟨by show isModhex pidP = true; decide, by show publicIdTooLong Config.defaults pidP = false; decide, hu, hn, hg⟩

theorem stateWith_inv {f : FsmState} {r : DeviceRegs} (hf : f ≠ .uninit) (hr : r.Ok Config.defaults) :
    (stateWith f r).Inv :=
  ⟨by simp [stateWith, hf], fun r' h => by cases h; exact hr, by show (0x0000 : BitVec 16) ∈ producibleStatuses; decide⟩

theorem live_inv : live.Inv := stateWith_inv (by decide) (regs_ok _ _ _ _ (by decide) (by decide) (by decide))

theorem reset_inv : State.reset.Inv := ⟨by decide, fun r h => (by cases h), by decide⟩

theorem witness_DecodeAndEncodeAgree : (decode 0x0241 lanes).toOption = some (.devGenerate (some 12)) := by decide

theorem witness_LegalWordsMatchTheOpcodeMap : (opcodeTable.any (·.accepts 0x0230)) = true ∧
    (decode 0x0230 lanes).toOption.isSome = true := by decide

theorem witness_CarriedCommandsAreWellFormed : carriable shortOperands lanes = true ∧
    (decode 0x0010 lanes).toOption = some (.mhxEnc [1]) := by decide

theorem witness_StepRunsTheDecodedCommand :
    (withCommand 0x0042 lanes).pending = .command ⟨0x0042, lanes, answers 1 2 3⟩ :: [] ∧
    carriable (withCommand 0x0042 lanes).params lanes = true ∧ (decode 0x0042 lanes).toOption = some .devSave := by decide

/-- Each case of 30_encoding.md R63 at its boundary: RSVD bits 10 and 15, an OPC beside the table, each presence bit on a
row that has the other one. -/
theorem witness_IllegalWordOnlyReportsStatus :
    (withCommand 0x0430 lanes).pending = .command ⟨0x0430, lanes, answers 1 2 3⟩ :: [] ∧
    carriable (withCommand 0x0430 lanes).params lanes = true ∧
    ∀ w ∈ ([0x0430, 0x8010, 0x0013, 0x0043, 0x0340, 0x0141] : List (BitVec 16)),
      ∀ r ∈ opcodeTable, r.accepts w = false := by
  refine ⟨by decide, by decide, by simp [opcodeTable, TableRow.accepts]⟩

/-- Each of the six lanes one byte over the limit. -/
theorem witness_OverlongOperandGetsNoStep :
    let s : List Operands := [{ data := [1, 2, 3, 4, 5] }, { text := [1, 2, 3, 4, 5] }, { publicId := [1, 2, 3, 4, 5] },
      { otp := [1, 2, 3, 4, 5] }, { createPrivateId := [1, 2, 3, 4, 5] }, { createAesKey := [1, 2, 3, 4, 5] }]
    shortOperands.maxOperandBytes = some 4 ∧
    ∀ o ∈ s, (4 < o.data.length ∨ 4 < o.text.length ∨ 4 < o.publicId.length ∨ 4 < o.otp.length ∨
      4 < o.createPrivateId.length ∨ 4 < o.createAesKey.length) := by decide

theorem witness_OverlongOperandGetsNoStep_state : ({ withCommand 0x0010 { data := [1, 2, 3, 4, 5] } with
      params := shortOperands } : State).pending =
        .command ⟨0x0010, { data := [1, 2, 3, 4, 5] }, answers 1 2 3⟩ :: [] ∧
    State.reset.params.maxOperandBytes = none := by decide

theorem witness_HostEventsOutsideCommands : State.reset.pending = [] ∧
    ({ live with pending := [.powerOn] } : State).pending = .powerOn :: [] := by decide

theorem witness_PowerOnResetState : State.reset.fsmState = .uninit := by decide

theorem witness_MhxEncEmitsTwoCharactersPerByte : (hex "0123")[1]? = some 0x23 := by decide

/-- One string for each of the three clauses; the fourth meets the last clause's inner premise. -/
theorem witness_MhxDecDecodesOrNamesTheError : (str "x").length % 2 = 1 ∧
    ((str "cx").length % 2 = 0 ∧ ∃ c ∈ str "cx", mhxVal c = none) ∧
    ((str "Cb").length % 2 = 0 ∧ ∀ c ∈ str "Cb", mhxVal c ≠ none) ∧ (hex "01")[0]? = some 0x01 := by decide

theorem witness_ModhexLaws : isModhex (str "CbDe") = true ∧
    reply (.mhxEnc [0x5A]) State.reset = reply (.mhxEnc [0x5A]) live := by decide

theorem witness_CrcResidualAndDetection : (hex "1122334455660000030201003412b3db").length = 16 ∧
    crc16 (hex "1122334455660000030201003412b3db") = 0xF0B8 ∧ 127 < 128 ∧ 0 < 128 ∧ 0 ≠ 127 ∧
    (hex "1122").length = (hex "3344").length := by decide

theorem witness_LittleEndianIntegers : (2 : Nat) < 3 ∧ (leBytes 3 (0x010203 : BitVec 24))[2]? = some 0x01 := by decide

/-- A plaintext for each clause: T10 and T10a. -/
theorem witness_TokUnpackChecksThenReads : crc16 (b16 "1122334455660000030201003412b3db").val = 0xF0B8 ∧
    crc16 (BytesN.zeros 16).val ≠ 0xF0B8 := by decide

theorem mhxVal_of_mem_mhxLower_mhxEncode (b : Bytes) : ∀ c ∈ mhxLower (mhxEncode b), mhxVal c ≠ none := by
  induction b with
  | nil => intro c h; cases h
  | cons x rest ih =>
    intro c h
    simp only [mhxEncode, mhxLower, List.map_cons, mhxVal_mhxChar, List.mem_cons] at h
    rcases h with rfl | rfl | h
    · simp
    · simp
    · exact ih c h

theorem isModhex_mhxEncode (b : Bytes) : isModhex (mhxEncode b) = true := by
  have h : ∀ b : Bytes, hasForeignByte (mhxEncode b) = false := by
    intro b
    induction b with
    | nil => rfl
    | cons x rest ih => simpa [hasForeignByte, mhxEncode] using ih
  simp [isModhex, h, oddLength]

theorem mhxBlock_mhxEncode (ct : Bytes16) : mhxBlock (mhxEncode ct.val) = some ct := by
  simp [mhxBlock]

/-- The OTP of a block: `TOK_PARSE` gives what unpacking the block gives, for any cipher. -/
theorem reply_tokParse_formatOtp (key : Bytes16) (pub : Str) (pt : Bytes16) (s : State) :
    reply (.tokParse key (formatOtp pub (aesEnc key pt))) s =
      match unpack pt with
      | none => some (0x0002, .empty)
      | some f => some (0x0000, .parsed pub f) := by
  have hl : (formatOtp pub (aesEnc key pt)).length = pub.length + 32 := formatOtp_length _ _
  have h1 : slice (formatOtp pub (aesEnc key pt)) 0 pub.length = pub := by
    simp [slice, formatOtp]
  have h2 : slice (formatOtp pub (aesEnc key pt)) pub.length (pub.length + 32) = mhxEncode (aesEnc key pt).val := by
    simp only [slice, formatOtp, List.drop_left]
    rw [List.take_of_length_le (by simp [(aesEnc key pt).property])]
  simp only [reply, exec, execTokParse, Config.ciphertextChars, hl, show ¬ (pub.length + 32 < 32) by omega, if_false,
    Nat.add_sub_cancel, h1, h2, mhxBlock_mhxEncode, aesDec_aesEnc]
  cases unpack pt <;> simp

/-- A string for each of the five clauses; the two after the cipher are OTPs of a bad and of a good block. -/
theorem witness_TokParseChecksInOrder : (str "c").length < 32 ∧
    (32 ≤ (List.replicate 32 (0x78 : Byte)).length ∧
      isModhex ((List.replicate 32 (0x78 : Byte)).drop 0) = false) ∧
    ∀ pt : Bytes16, ∃ otp : Str, otp.length = 32 ∧ isModhex (otp.drop (otp.length - 32)) = true ∧
      reply (.mhxDec otp) State.reset = some (0x0000, .data (aesEnc keyK pt).val) ∧
      aesDec keyK (aesEnc keyK pt) = pt := by
  refine ⟨by decide, by decide, fun pt => ⟨mhxEncode (aesEnc keyK pt).val, ?_, ?_, ?_, aesDec_aesEnc _ _⟩⟩
  · simp [(aesEnc keyK pt).property]
  · simp [(aesEnc keyK pt).property, isModhex_mhxEncode]
  · simp [reply, exec, execMhxDec, oddLength]

/-- `TOK_PARSE` succeeds on the OTP of T10's block, for any cipher. -/
theorem witness_tokParse_succeeds (s : State) :
    reply (.tokParse keyK (formatOtp pidP (aesEnc keyK (b16 "1122334455660000030201003412b3db")))) s =
      some (0x0000, .parsed pidP ⟨idI, 0, 0x010203, 0, 0x1234⟩) := by
  rw [reply_tokParse_formatOtp]
  decide

theorem witness_TamperedOtpNeverKeepsItsFields : ∃ (tail tail' : Str) (f : TokenFields),
    tail.length = 32 ∧ tail'.length = 32 ∧ mhxLower tail ≠ mhxLower tail' ∧
    reply (.tokParse keyK (pidP ++ tail)) State.reset = some (0x0000, .parsed pidP f) := by
  refine ⟨mhxEncode (aesEnc keyK (b16 "1122334455660000030201003412b3db")).val, List.replicate 32 0x78,
    ⟨idI, 0, 0x010203, 0, 0x1234⟩, ?_, by decide, ?_, witness_tokParse_succeeds _⟩
  · simp [(aesEnc keyK _).property]
  · intro h
    refine mhxVal_of_mem_mhxLower_mhxEncode (aesEnc keyK (b16 "1122334455660000030201003412b3db")).val 0x78 ?_ (by decide)
    rw [h]
    decide

theorem witness_CodecCommandsTouchNoDeviceRegister : codec (.tokParse keyK (str "short")) = true ∧
    codec (.mhxEnc []) = true := by decide

/-- Every operand at its bound (D10), with and without a timestamp, and a failing command. -/
theorem witness_DevCreateWritesEveryRegister : pidP.length % 2 = 0 ∧ (∀ c ∈ pidP, mhxVal c ≠ none) ∧
    (∀ limit, ({ pidMaxChars := some 12 } : Config.Params).pidMaxChars = some limit → pidP.length ≤ limit) ∧
    (0x7FFF : BitVec 32).toNat ≤ 0x7FFF ∧ (∀ t, some (0xFFFFFF : BitVec 32) = some t → t.toNat ≤ 0xFFFFFF) ∧
    (∀ t, (none : Option (BitVec 32)) = some t → t.toNat ≤ 0xFFFFFF) ∧ (0xFF : BitVec 32).toNat ≤ 0xFF := by
  refine ⟨by decide, by decide, ?_, by decide, ?_, ?_, by decide⟩
  · intro limit h; cases h; decide
  · intro t h; cases h; decide
  · intro t h; cases h

theorem witness_DevCreateWritesEveryRegister_error : ∃ t, exec (create 0x8000 none 0) live = .next t ∧ t.status ≠ 0x0000 :=
  ⟨_, rfl, by decide⟩

theorem witness_SeedDrawLeavesTheMargin : 1 ≤ Config.defaults.tsMargin ∧ Config.defaults.tsMargin ≤ 2 ^ 24 ∧
    0xF00000 ≤ 2 ^ 24 - Config.defaults.tsMargin ∧ Config.defaults.tsMargin = 2 ^ 20 := by decide

theorem witness_DevGenerateEmitsOneOtpOrFails : (stateWith .created (regs 0 0 0xFF false)).fsmState = .created ∧
    (stateWith .created (regs 0 0 0xFF false)).dev = some (regs 0 0 0xFF false) ∧
    (regs 0 0 0xFF false).sessionCounter.toNat ≤ 0xFF := by decide

/-- The error clauses of `DEV_GENERATE` and `DEV_SAVE`. -/
theorem witness_DevGenerateEmitsOneOtpOrFails_errors : State.reset.fsmState ≠ .created ∧
    (stateWith .persisted (regs 0 0 0 false)).fsmState ≠ .created ∧ live.fsmState = .created ∧
    live.dev = some (regs 0x7FFF 0xF00000 0x100 true) ∧ 0xFF < (regs 0x7FFF 0xF00000 0x100 true).sessionCounter.toNat := by
  decide

/-- A state with no registers for each clause, right after reset and in the state no run reaches. -/
theorem witness_NoCommandReadsAValuelessRegister : State.reset.dev = none ∧
    ({ State.reset with fsmState := .created } : State).dev = none ∧
    ∃ t, exec (create 7 none 0) State.reset = .next t ∧ t.dev ≠ none ∧ t.status = 0x0000 :=
  ⟨rfl, rfl, _, rfl, by decide, rfl⟩

theorem witness_DevSaveEmitsTheRecordOrFails : State.reset.fsmState ≠ .created ∧ live.fsmState = .created ∧ live.dev = some (regs 0x7FFF 0xF00000 0x100 true) ∧
    Config.defaults.saveBumpRule = .flag ∧ ({ saveBumpRule := .counterGtZero } : Config.Params).saveBumpRule = .counterGtZero ∧
    (regs 7 0 5 false).generated = false ∧ (regs 7 0 5 false).sessionCounter.toNat > 0 ∧
    (regs 7 0 0 false).sessionCounter.toNat = 0 ∧ (regs 7 0 6 true).generated = true := by decide

theorem witness_TransitionTable : ∃ s : State, s.Inv ∧ s.pending = issue (.devGenerate none) (answers 1 2 3) :: [] ∧
    carriable s.params (encodeOperands (.devGenerate none)) = true :=
  ⟨{ live with pending := [issue (.devGenerate none) (answers 1 2 3)] }, ⟨live_inv.absent, live_inv.regs, live_inv.status⟩,
    rfl, by decide⟩

theorem witness_EveryStepKeepsTheInvariant : ∃ s t : State, s.Inv ∧ step s = .next t ∧ t.fsmState = .persisted :=
  ⟨{ live with pending := [issue .devSave (answers 1 2 3)] }, _, ⟨live_inv.absent, live_inv.regs, live_inv.status⟩, rfl, rfl⟩

theorem witness_TheBlockAlwaysAnswers : State.Carriable { live with pending := [issue .devSave (answers 1 2 3)] } :=
  fun t h => by
    simp only [issue, List.mem_singleton, HostEvent.command.injEq] at h
    subst h; decide

/-- A step for each kind of writer, for the statements about every command and the state after it. -/
theorem witness_everyCommand : (∃ t, exec (create 7 (some 9) 0xFF) live = .next t ∧ t.status = 0x0000) ∧
    (∃ t, exec .devSave live = .next t ∧ t.status = 0x0000) ∧ (∃ t, exec (.devGenerate none) live = .next t ∧ t.status ≠ 0x0000) ∧
    ∃ t, exec (.mhxEnc [1]) live = .next t ∧ t.responses = ⟨0x0000, .text (str "cb"), []⟩ :: live.responses :=
  ⟨⟨_, rfl, by decide⟩, ⟨_, rfl, by decide⟩, ⟨_, rfl, by decide⟩, ⟨_, rfl, by decide⟩⟩

theorem witness_IdentityIsFixedAtCreation : ∃ t, exec .devSave live = .next t := ⟨_, rfl⟩
/-- A live instance in which one more OTP can be generated. -/
def lastOtp : State := stateWith .created (regs 0 0 0xFF false)

theorem lastOtp_inv : lastOtp.Inv := stateWith_inv (by decide) (regs_ok _ _ _ _ (by decide) (by decide) (by decide))

/-- A successful create and generate, an error and another command: every clause has a case. -/
theorem witness_SessionCounterWriters : live.Inv ∧ lastOtp.Inv ∧
    (∃ t, exec (create 7 none 0xFF) live = .next t ∧ t.status = 0x0000) ∧
    (∃ t, exec (.devGenerate none) lastOtp = .next t ∧ t.status = 0x0000) ∧
    (∃ t, exec (.devGenerate none) live = .next t ∧ t.status ≠ 0x0000) ∧ (∃ t, exec .devSave live = .next t) ∧
    live.fsmState = .created ∧ live.dev = some (regs 0x7FFF 0xF00000 0x100 true) ∧
    (regs 0x7FFF 0xF00000 0x100 true).sessionCounter.toNat = 0x100 :=
  ⟨live_inv, lastOtp_inv, ⟨_, rfl, rfl⟩, ⟨_, rfl, rfl⟩, ⟨_, rfl, by decide⟩, ⟨_, rfl⟩, rfl, rfl, rfl⟩
theorem witness_GeneratedFlagTracksTheSession :
    (∃ t, exec (create 7 none 0) live = .next t ∧ t.status = 0x0000) ∧
    (∃ t, exec (.devGenerate none) lastOtp = .next t ∧ t.status = 0x0000) ∧
    (∃ t, exec (.devGenerate none) live = .next t ∧ t.status ≠ 0x0000) ∧
    ∃ t, exec .devSave live = .next t ∧ Instr.devSave.opcode ≠ .devCreate ∧ Instr.devSave.opcode ≠ .devGenerate :=
  ⟨⟨_, rfl, rfl⟩, ⟨_, rfl, rfl⟩, ⟨_, rfl, by decide⟩, ⟨_, rfl, by decide, by decide⟩⟩
theorem witness_StatusIsWrittenAndNeverRead : ∃ t, exec (.crc16 []) live = .next t := ⟨_, rfl⟩
theorem witness_StatusValuesByCommand : ∃ t, exec (.mhxDec (str "c")) live = .next t ∧ t.status = 0x0171 := ⟨_, rfl, by decide⟩
theorem witness_ErrorsLeaveNothingBehind : (∃ t, exec (.devGenerate none) live = .next t ∧ t.status ≠ 0x0000) ∧
    ∃ t, illegalCommand live = .next t ∧ t.status ≠ 0x0000 := ⟨⟨_, rfl, by decide⟩, ⟨_, rfl, by decide⟩⟩
theorem witness_PortCallsByCommand : ∃ (t : State) (r : Response), exec (create 7 none 0) live = .next t ∧
    t.responses = r :: live.responses ∧ r.calls = [.randomRange 0 0xF00000, .clockNow] := ⟨_, _, rfl, rfl, by decide⟩
theorem witness_SecretsLeaveOnlyInTheRecord : live.dev = some (regs 0x7FFF 0xF00000 0x100 true) ∧
    Instr.mhxEnc [] ≠ .devSave ∧ (Instr.mhxEnc []).opcode ≠ .devGenerate ∧ State.reset.fsmState ≠ .created ∧
    0xFF < (regs 0x7FFF 0xF00000 0x100 true).sessionCounter.toNat ∧ lastOtp.dev = some (regs 0 0 0xFF false) ∧
    lastOtp.fsmState = .created ∧ (regs 0 0 0xFF false).sessionCounter.toNat ≤ 0xFF := by decide

/-- A created session at the ceiling's edge: one generation is left. -/
theorem witness_SessionFieldsCountUp : ∃ s, exec (.devCreate pidP idI.val keyK.val 5 (some 9) 0xFF) State.reset = .next s ∧
    s.status = 0x0000 ∧ ([(none, answers 1 2 3)] : List Generation).length ≤ 256 - (0xFF : BitVec 32).toNat :=
  ⟨_, rfl, by decide, by decide⟩

theorem witness_BumpRulesAgreeAfterAZeroStart : ∃ s, exec (.devCreate pidP idI.val keyK.val 5 (some 9) 0) State.reset =
    .next s ∧ s.status = 0x0000 := ⟨_, rfl, by decide⟩

theorem witness_OverflowAtTheSessionCeiling : ∃ s, exec (.devCreate pidP idI.val keyK.val 5 (some 9) 0xFF) State.reset =
    .next s ∧ s.status = 0x0000 ∧ ([(none, answers 1 2 3)] : List Generation).length = 256 - (0xFF : BitVec 32).toNat :=
  ⟨_, rfl, by decide, by decide⟩

theorem witness_UsageCounterCeiling : live.Inv ∧ live.fsmState = .created ∧
    live.dev = some (regs 0x7FFF 0xF00000 0x100 true) ∧ (regs 0x7FFF 0xF00000 0x100 true).usageCounter = 0x7FFF ∧
    (regs 0x7FFF 0xF00000 0x100 true).generated = true ∧
    (live.params.saveBumpRule = .counterGtZero → 0 < (regs 0x7FFF 0xF00000 0x100 true).sessionCounter.toNat) ∧
    State.reset.params = live.params :=
  ⟨live_inv, rfl, rfl, rfl, rfl, by decide, rfl⟩

theorem witness_LoadRestoresTheSavedIdentity :
    (stateWith .created (regs 7 0 5 true)).Inv ∧ (stateWith .created (regs 7 0 5 true)).fsmState = .created ∧
    reply .devSave (stateWith .created (regs 7 0 5 true)) = some (0x0000, .record ⟨pidP, idI, keyK, 8⟩) ∧
    (8 : BitVec 16).toNat ≤ 0x7FFF ∧ State.reset.params = (stateWith .created (regs 7 0 5 true)).params :=
  ⟨stateWith_inv (by decide) (regs_ok _ _ _ _ (by decide) (by decide) (by decide)), rfl, by decide, by decide, rfl⟩

/-- One generation of a live instance in a chain: its pair and the registers after it, for any cipher. -/
theorem generatePair_live (key : Bytes16) (g : Generation) (s : State) (r : DeviceRegs) (f : TokenFields)
    (hf : s.fsmState = .created) (hd : s.dev = some r) (hk : r.aesKey = key) (hn : ¬ 0xFF < r.sessionCounter.toNat)
    (hu : unpack (pack (generateFields r g.1 g.2)) = some f) :
    ∃ t, generatePair key g s = some ([(f.usageCounter.toNat, f.sessionCounter.toNat)], t) ∧
      t.fsmState = .created ∧ t.dev = some (afterGenerate r) ∧ t.params = s.params := by
  subst hk
  refine ⟨(({ s with ports := g.2 } : State).withRegs (afterGenerate r)).respond
    ⟨0x0000, .otp (formatOtp r.publicId (aesEnc r.aesKey (pack (generateFields r g.1 g.2)))),
      [.clockElapsed8 r.poweron] ++ randomFieldCalls g.1 ++ [.aesEnc r.aesKey (pack (generateFields r g.1 g.2))]⟩,
    ?_, hf, rfl, rfl⟩
  simp only [generatePair, exec, execDevGenerate, withInstance, hf, hd, if_false, Config.sessionMax, hn,
    complete_eq, respond_responses, reply_tokParse_formatOtp, hu]
  rfl

/-- The registers that a load of `(P, I, K, 7)` leaves. -/
def loadedRegs : DeviceRegs := ⟨pidP, idI, keyK, 7, 9, 3, false, ⟨1⟩⟩

/-- The state that a load of `(P, I, K, 7)` leaves. -/
def loaded : State :=
  ((({ State.reset with ports := answers 1 0 0 } : State).withRegs loadedRegs).withFsm .created).respond
    ⟨0x0000, .empty, [.clockNow]⟩

theorem exec_load : exec (devLoad ⟨pidP, idI, keyK, 7⟩ (some 9) 3) { State.reset with ports := answers 1 0 0 } =
    .next loaded := rfl

theorem witness_CounterPairsIncreaseAcrossSessions :
    chainPairs [⟨some 9, 3, answers 1 0 0, [(some 0, answers 1 0 0)], true⟩] ⟨pidP, idI, keyK, 7⟩ State.reset =
      some [(7, 3)] := by
  obtain ⟨t, h1, h2, h3, h4⟩ := generatePair_live keyK (some 0, answers 1 0 0) loaded loadedRegs ⟨idI, 7, 9, 3, 0⟩ rfl rfl
    rfl (by decide) (by decide)
  have hsave : exec .devSave t = .next ((t.withFsm .persisted).respond
      ⟨0x0000, .record (saveRecord t.params (afterGenerate loadedRegs)), []⟩) := by
    simp only [exec, execDevSave, withInstance, h2, h3, complete_eq]
  simp only [chainPairs, sessionPairs, exec_load, show loaded.status = 0x0000 from rfl, if_true, generatePairs, h1,
    Option.bind_eq_bind, Option.bind_some, hsave, respond_responses]
  rfl

end Sys2Proof.Tests
end

/-! PROOFS, 10_state.md: what a command can do to the state, said once, and what follows for the invariant, the
identity registers, the counters and `status`. -/

namespace Sys2Proof.Machine

/-! ## The checks of DEV_CREATE and the registers it writes -/

section Create

variable {p : Config.Params} {publicId : Str} {privateId aesKey : Bytes} {usageCounter : BitVec 32}
  {timestamp : Option (BitVec 32)} {sessionCounter : BitVec 32}

/-- A check passes on exactly if its condition is false and the rest passes. -/
theorem ite_error_eq_ok {ε α : Type} {c : Prop} [Decidable c] {e : ε} {x : Except ε α} {v : α} :
    (if c then .error e else x) = .ok v ↔ ¬ c ∧ x = .ok v := by
  split <;> simp [*]

theorem pidMaxChars_ne_none_of_publicIdTooLong (h : publicIdTooLong p publicId = true) : p.pidMaxChars ≠ none := by
  intro hn
  simp [publicIdTooLong, hn] at h

/-- The errors of the eight checks (43_device.md R171); the third needs a finite `PID_MAX_CHARS`. -/
theorem validateCreate_error {e : CommandError}
    (h : validateCreate p publicId privateId aesKey usageCounter timestamp sessionCounter = .error e) :
    (e = .validation .publicId .length ∧ p.pidMaxChars ≠ none) ∨
      e ∈ [.validation .publicId .oddLength, .validation .publicId .alphabet, .validation .privateId .length,
        .validation .aesKey .length, .validation .usageCounter .range, .validation .timestamp .range,
        .validation .sessionCounter .range] := by
  unfold validateCreate at h
  repeat' split at h
  all_goals cases h
  on_goal 3 => exact .inl ⟨rfl, pidMaxChars_ne_none_of_publicIdTooLong ‹_›⟩
  all_goals simp

/-- Every error of the checks has a producible status (30_encoding.md R74). -/
theorem validateCreate_error_status {e : CommandError}
    (h : validateCreate p publicId privateId aesKey usageCounter timestamp sessionCounter = .error e) :
    errorStatus e ∈ producibleStatuses := by
  rcases validateCreate_error h with ⟨rfl, -⟩ | he
  · decide
  · fin_cases he <;> decide

/-- Creation passes exactly if every check of 43_device.md R171 does, and hands on the two byte strings as they are. -/
theorem validateCreate_ok_iff {pid : Bytes6} {key : Bytes16} :
    validateCreate p publicId privateId aesKey usageCounter timestamp sessionCounter = .ok (pid, key) ↔
      isModhex publicId = true ∧ publicIdTooLong p publicId = false ∧ usageCounter.toNat ≤ 0x7FFF ∧
        (∀ t, timestamp = some t → t.toNat ≤ 0xFFFFFF) ∧ sessionCounter.toNat ≤ 0xFF ∧ pid.val = privateId ∧
        key.val = aesKey := by
  rw [← asBytesN_eq_some, ← asBytesN_eq_some]
  cases h6 : asBytesN 6 privateId with
  | none => simp [validateCreate, h6, ite_error_eq_ok]
  | some pid' =>
    cases h16 : asBytesN 16 aesKey with
    | none => simp [validateCreate, h6, h16, ite_error_eq_ok]
    | some key' =>
      cases timestamp <;> simp [validateCreate, isModhex, h6, h16, ite_error_eq_ok, and_assoc]

variable {pid : Bytes6} {key : Bytes16} {a : PortAnswers}

theorem createdRegs_usageCounter_le :
    (createdRegs p publicId pid key usageCounter timestamp sessionCounter a).usageCounter.toNat ≤
      usageCounter.toNat := by
  simp [createdRegs, Nat.mod_le]

/-- A fresh session counter is an 8-bit value in the 9-bit register (10_state.md R17). -/
theorem createdRegs_sessionCounter_le :
    (createdRegs p publicId pid key usageCounter timestamp sessionCounter a).sessionCounter.toNat ≤ 0xFF := by
  have hbyte := (sessionCounter.extractLsb' 0 8).isLt
  simp only [createdRegs, BitVec.toNat_setWidth]
  omega

/-- The registers of a creation that passed its checks meet R25. -/
theorem createdRegs_ok
    (h : validateCreate p publicId privateId aesKey usageCounter timestamp sessionCounter = .ok (pid, key)) :
    (createdRegs p publicId pid key usageCounter timestamp sessionCounter a).Ok p := by
  obtain ⟨hmodhex, hlong, husage, -⟩ := validateCreate_ok_iff.mp h
  exact {
    publicId := hmodhex
    publicIdLength := hlong
    usageCounter := createdRegs_usageCounter_le.trans husage
    sessionCounter := createdRegs_sessionCounter_le.trans (by decide)
    notGenerated := fun _ => createdRegs_sessionCounter_le }

end Create

/-! ## The registers after a generation -/

/-- Below 0x100 the 9-bit session counter does not wrap (10_state.md R17). -/
theorem afterGenerate_sessionCounter_toNat {r : DeviceRegs} (h : r.sessionCounter.toNat ≤ 0xFF) :
    (afterGenerate r).sessionCounter.toNat = r.sessionCounter.toNat + 1 := by
  have hone : (1 : BitVec 9).toNat = 1 := rfl
  rw [afterGenerate_sessionCounter, BitVec.toNat_add, hone]
  omega

theorem afterGenerate_ok {p : Config.Params} {r : DeviceRegs} (hr : r.Ok p) (h : r.sessionCounter.toNat ≤ 0xFF) :
    (afterGenerate r).Ok p where
  publicId := hr.publicId
  publicIdLength := hr.publicIdLength
  usageCounter := hr.usageCounter
  sessionCounter := by rw [afterGenerate_sessionCounter_toNat h]; omega
  notGenerated := by simp

/-! ## What a command can do -/

/-- The effects of a command on the state: an error, or the success of a codec command or of one of the three device
commands. Every effect ends in one response; port calls, and results where no rule here needs them, stay open. -/
inductive CommandEffect (s : State) : Instr → State → Prop
  /-- An error writes `status` and nothing else (60_exceptions.md R201). -/
  | error {i : Instr} {e : CommandError} {calls : List PortCall} (he : errorStatus e ∈ producibleStatuses) :
      CommandEffect s i (s.respond ⟨errorStatus e, .empty, calls⟩)
  /-- A codec command that succeeds writes `status` and nothing else (42_token.md R147). -/
  | codec {i : Instr} {results : Results} {calls : List PortCall} (hi : codec i = true) :
      CommandEffect s i (s.respond ⟨0x0000, results, calls⟩)
  /-- A creation that passes its checks (43_device.md R170). -/
  | create {publicId : Str} {privateId aesKey : Bytes} {u : BitVec 32} {ts : Option (BitVec 32)} {n : BitVec 32}
      {pid : Bytes6} {key : Bytes16} {calls : List PortCall}
      (hv : validateCreate s.params publicId privateId aesKey u ts n = .ok (pid, key)) :
      CommandEffect s (.devCreate publicId privateId aesKey u ts n)
        (((s.withRegs (createdRegs s.params publicId pid key u ts n s.ports)).withFsm .created).respond
          ⟨0x0000, .empty, calls⟩)
  /-- A generation in `CREATED` whose session counter is at most 0xFF (43_device.md R173). -/
  | generate {random : Option (BitVec 16)} {r : DeviceRegs} {results : Results} {calls : List PortCall}
      (hf : s.fsmState = .created) (hd : s.dev = some r) (hn : r.sessionCounter.toNat ≤ 0xFF) :
      CommandEffect s (.devGenerate random) ((s.withRegs (afterGenerate r)).respond ⟨0x0000, results, calls⟩)
  /-- A save in `CREATED` (43_device.md R175). -/
  | save {r : DeviceRegs} {results : Results} {calls : List PortCall}
      (hf : s.fsmState = .created) (hd : s.dev = some r) :
      CommandEffect s .devSave ((s.withFsm .persisted).respond ⟨0x0000, results, calls⟩)

/-- An outcome that answers, with one of the command's effects. -/
def HasEffect (s : State) (i : Instr) (o : Host.Outcome State Fault Refusal) : Prop :=
  ∃ t, o = .next t ∧ CommandEffect s i t

theorem hasEffect_raiseError {s : State} {i : Instr} {e : CommandError} {calls : List PortCall}
    (he : errorStatus e ∈ producibleStatuses) : HasEffect s i (raiseError e calls s) :=
  ⟨_, raiseError_eq .., .error he⟩

theorem hasEffect_complete {s : State} {i : Instr} {results : Results} {calls : List PortCall}
    (hi : codec i = true) : HasEffect s i (complete results calls s) :=
  ⟨_, complete_eq .., .codec hi⟩

theorem execMhxDec_hasEffect (text : Str) (s : State) : HasEffect s (.mhxDec text) (execMhxDec text s) := by
  unfold execMhxDec
  split
  · exact hasEffect_raiseError (by decide)
  split
  · exact hasEffect_raiseError (by decide)
  · exact hasEffect_complete rfl

theorem execTokUnpack_hasEffect (pt : Bytes16) (s : State) : HasEffect s (.tokUnpack pt) (execTokUnpack pt s) := by
  unfold execTokUnpack
  split
  · exact hasEffect_raiseError (by decide)
  · exact hasEffect_complete rfl

theorem execTokParse_hasEffect (key : Bytes16) (otp : Str) (s : State) :
    HasEffect s (.tokParse key otp) (execTokParse key otp s) := by
  unfold execTokParse
  split
  · exact hasEffect_raiseError (by decide)
  extract_lets
  split
  · exact hasEffect_raiseError (by decide)
  split
  · exact hasEffect_raiseError (by decide)
  · exact hasEffect_complete rfl

theorem execDevCreate_hasEffect (publicId : Str) (privateId aesKey : Bytes) (u : BitVec 32) (ts : Option (BitVec 32))
    (n : BitVec 32) (s : State) :
    HasEffect s (.devCreate publicId privateId aesKey u ts n) (execDevCreate publicId privateId aesKey u ts n s) := by
  unfold execDevCreate
  split
  · next e hv => exact hasEffect_raiseError (validateCreate_error_status hv)
  · next hv => exact ⟨_, complete_eq .., .create hv⟩

theorem execDevGenerate_hasEffect (random : Option (BitVec 16)) (s : State) :
    HasEffect s (.devGenerate random) (execDevGenerate random s) := by
  unfold execDevGenerate
  rcases withInstance_cases s _ with ⟨r, hf, hd, he⟩ | ⟨-, he⟩ <;> rw [he]
  · split
    · exact hasEffect_raiseError (by decide)
    · next hn => exact ⟨_, complete_eq .., .generate hf hd (Nat.le_of_not_lt hn)⟩
  · exact ⟨_, rfl, .error (e := .state) (by decide)⟩

theorem execDevSave_hasEffect (s : State) : HasEffect s .devSave (execDevSave s) := by
  unfold execDevSave
  rcases withInstance_cases s _ with ⟨r, hf, hd, he⟩ | ⟨-, he⟩ <;> rw [he]
  · exact ⟨_, complete_eq .., .save hf hd⟩
  · exact ⟨_, rfl, .error (e := .state) (by decide)⟩

/-- Every command answers in every state, with one of its effects; the last arm is the eight codec commands that have
no error (30_encoding.md R74). -/
theorem exec_hasEffect (i : Instr) (s : State) : HasEffect s i (exec i s) := by
  cases i with
  | mhxDec text => exact execMhxDec_hasEffect text s
  | tokUnpack pt => exact execTokUnpack_hasEffect pt s
  | tokParse key otp => exact execTokParse_hasEffect key otp s
  | devCreate publicId privateId aesKey u ts n => exact execDevCreate_hasEffect publicId privateId aesKey u ts n s
  | devGenerate random => exact execDevGenerate_hasEffect random s
  | devSave => exact execDevSave_hasEffect s
  | _ => exact hasEffect_complete rfl

/-- What a command that answered has done. -/
theorem exec_next {i : Instr} {s t : State} (h : exec i s = .next t) : CommandEffect s i t := by
  obtain ⟨u, hu, heffect⟩ := exec_hasEffect i s
  obtain rfl : u = t := by simpa [hu] using h
  exact heffect

theorem codec_opcode_ne {i : Instr} (h : codec i = true) : i.opcode ≠ .devCreate ∧ i.opcode ≠ .devGenerate := by
  cases i <;> simp_all [codec, Instr.opcode]

/-! ## The invariant -/

theorem State.Inv.respond {s : State} (h : s.Inv) {r : Response} (hr : r.status ∈ producibleStatuses) :
    (s.respond r).Inv :=
  ⟨h.absent, h.regs, hr⟩

theorem State.Inv.accept {s : State} (h : s.Inv) (tr : Transaction) (rest : List HostEvent) : (s.accept tr rest).Inv :=
  ⟨h.absent, h.regs, h.status⟩

/-- A state with registers that meet R25, outside `UNINIT`, meets the invariant. -/
theorem inv_of_loaded {s : State} {r : DeviceRegs} (hf : s.fsmState ≠ .uninit) (hd : s.dev = some r)
    (hr : r.Ok s.params) (hstatus : s.status ∈ producibleStatuses) : s.Inv where
  absent := by simp [hf, hd]
  regs := by simpa [hd] using hr
  status := hstatus

theorem inv_of_unloaded {s : State} (hf : s.fsmState = .uninit) (hd : s.dev = none)
    (hstatus : s.status ∈ producibleStatuses) : s.Inv where
  absent := by simp [hf, hd]
  regs := by simp [hd]
  status := hstatus

theorem CommandEffect.inv {i : Instr} {s t : State} (h : CommandEffect s i t) (hs : s.Inv) : t.Inv := by
  have hok : (0x0000 : BitVec 16) ∈ producibleStatuses := by decide
  cases h with
  | error he => exact hs.respond he
  | codec hi => exact hs.respond hok
  | create hv => exact inv_of_loaded (by simp) rfl (createdRegs_ok hv) hok
  | generate hf hd hn => exact inv_of_loaded (by simp [hf]) rfl (afterGenerate_ok (hs.regs _ hd) hn) hok
  | save hf hd => exact inv_of_loaded (by simp) hd (hs.regs _ hd) hok

theorem runTransaction_inv {tr : Transaction} {s t : State} (h : runTransaction tr s = .next t) (hs : s.Inv) :
    t.Inv := by
  obtain ⟨-, ⟨e, -, rfl⟩ | ⟨i, -, hexec⟩⟩ := runTransaction_next h
  · exact hs.respond (by decide)
  · exact (exec_next hexec).inv hs

/-- Settles O39: the step waits, resets, or runs a transaction, and each keeps the invariant. -/
theorem everyStepKeepsTheInvariant : Obligations.EveryStepKeepsTheInvariant := by
  intro s t hs hstep
  obtain ⟨-, rfl⟩ | ⟨rest, -, rfl⟩ | ⟨tr, rest, -, hrun⟩ := step_next hstep
  · exact hs
  · exact inv_of_unloaded rfl rfl (by simp [producibleStatuses])
  · exact runTransaction_inv hrun (hs.accept tr rest)

/-- Settles O38: reset leaves nothing loaded and status 0x0000. -/
theorem resetMeetsTheInvariant : Obligations.ResetMeetsTheInvariant :=
  inv_of_unloaded rfl rfl (by decide)

/-! ## Registers without a value -/

/-- Settles O34: every command has an effect, DEV_GENERATE and DEV_SAVE ask for loaded registers first, and of the
effects only the creation's writes registers that held no value. -/
theorem noCommandReadsAValuelessRegister : Obligations.NoCommandReadsAValuelessRegister := by
  refine ⟨fun i s => ?_, fun i s hd hi => ?_, fun i s t hd hexec => ?_⟩
  · obtain ⟨t, ht, -⟩ := exec_hasEffect i s
    exact ⟨t, ht⟩
  · obtain rfl | ⟨random, rfl⟩ := hi
    · exact withInstance_stateError (.inr hd) _
    · exact withInstance_stateError (.inr hd) _
  · cases exec_next hexec with
    | error he => simpa [hd] using fun _ => errorStatus_ne_zero _
    | codec hi => simp [hd, codec_opcode_ne hi]
    | create hv => simp [Instr.opcode]
    | generate hf hd' hn => simp [hd] at hd'
    | save hf hd' => simp [hd] at hd'

/-! ## Who writes the device registers -/

/-- Settles O41: outside the creation the registers stay, but for the two that a generation writes. -/
theorem identityIsFixedAtCreation : Obligations.IdentityIsFixedAtCreation := by
  intro i s t hexec
  cases exec_next hexec with
  | create hv => exact .inl ⟨rfl, rfl⟩
  | generate hf hd hn => exact .inr (by simp [hd, identity])
  | error he => exact .inr ⟨rfl, rfl, rfl, rfl⟩
  | codec hi => exact .inr ⟨rfl, rfl, rfl, rfl⟩
  | save hf hd => exact .inr ⟨rfl, rfl, rfl, rfl⟩

/-- A successful creation leaves a session counter that fits 8 bits and `generated` clear (10_state.md R17, R18). -/
theorem CommandEffect.dev_of_devCreate {i : Instr} {s t : State} (h : CommandEffect s i t)
    (hi : i.opcode = .devCreate) (hok : t.status = 0x0000) :
    ∃ r, t.dev = some r ∧ r.sessionCounter.toNat ≤ 0xFF ∧ r.generated = false := by
  cases h with
  | error he => exact absurd hok (errorStatus_ne_zero _)
  | codec hc => exact absurd hi (codec_opcode_ne hc).1
  | create hv => exact ⟨_, rfl, createdRegs_sessionCounter_le, rfl⟩
  | generate hf hd hn => cases hi
  | save hf hd => cases hi

/-- A successful generation had registers whose session counter was at most 0xFF, and leaves `afterGenerate` of them. -/
theorem CommandEffect.dev_of_devGenerate {i : Instr} {s t : State} (h : CommandEffect s i t)
    (hi : i.opcode = .devGenerate) (hok : t.status = 0x0000) :
    ∃ r, s.dev = some r ∧ r.sessionCounter.toNat ≤ 0xFF ∧ t.dev = some (afterGenerate r) := by
  cases h with
  | error he => exact absurd hok (errorStatus_ne_zero _)
  | codec hc => exact absurd hi (codec_opcode_ne hc).2
  | create hv => cases hi
  | generate hf hd hn => exact ⟨_, hd, hn, rfl⟩
  | save hf hd => cases hi

/-- Every other command, and every error, leaves all the registers that DEV_CREATE writes. -/
theorem CommandEffect.dev_unchanged {i : Instr} {s t : State} (h : CommandEffect s i t)
    (hi : (i.opcode ≠ .devCreate ∧ i.opcode ≠ .devGenerate) ∨ t.status ≠ 0x0000) : t.dev = s.dev := by
  cases h with
  | error he => rfl
  | codec hc => rfl
  | create hv => simp [Instr.opcode] at hi
  | generate hf hd hn => simp [Instr.opcode] at hi
  | save hf hd => rfl

/-- Past 0xFF every generation overflows (43_device.md R173). -/
theorem exec_devGenerate_overflow {s : State} {r : DeviceRegs} (hf : s.fsmState = .created) (hd : s.dev = some r)
    (hn : 0xFF < r.sessionCounter.toNat) (random : Option (BitVec 16)) :
    exec (.devGenerate random) s = .next (s.respond ⟨0x0003, .empty, []⟩) := by
  simp [exec, execDevGenerate, withInstance_created hf hd, hn]

/-- Settles O42: the counter clause of each device command's effect. -/
theorem sessionCounterWriters : Obligations.SessionCounterWriters := by
  refine ⟨fun i s t _ hexec => ⟨fun hi hok => ?_, fun hi hok => ?_, fun hi => ?_⟩, fun random s r hf hd hn => ?_⟩
  · obtain ⟨r, hr, hle, -⟩ := (exec_next hexec).dev_of_devCreate hi hok
    exact ⟨r, hr, hle⟩
  · obtain ⟨r, hr, hle, ht⟩ := (exec_next hexec).dev_of_devGenerate hi hok
    have hadd := afterGenerate_sessionCounter_toNat hle
    exact ⟨r, _, hr, ht, hadd, by omega⟩
  · rw [(exec_next hexec).dev_unchanged hi]
  · simp [reply, exec_devGenerate_overflow hf hd (by omega : 0xFF < r.sessionCounter.toNat)]

/-- Settles O43: the flag's value in each device command's effect. -/
theorem generatedFlagTracksTheSession : Obligations.GeneratedFlagTracksTheSession := by
  refine fun i s t hexec => ⟨fun hi hok => ?_, fun hi hok => ?_, fun hi => ?_⟩
  · obtain ⟨r, hr, -, hclear⟩ := (exec_next hexec).dev_of_devCreate hi hok
    simp [hr, hclear]
  · obtain ⟨r, -, -, ht⟩ := (exec_next hexec).dev_of_devGenerate hi hok
    simp [ht]
  · rw [(exec_next hexec).dev_unchanged hi]
    exact ⟨rfl, rfl⟩

/-! ## The status register -/

theorem CommandEffect.response {i : Instr} {s t : State} (h : CommandEffect s i t) :
    ∃ r, t.responses = r :: s.responses ∧ r.status = t.status := by
  cases h <;> exact ⟨_, rfl, rfl⟩

/-- No command depends on `status`: every arm ends in `State.respond`, which overwrites it (10_state.md R20). -/
theorem exec_setStatus (i : Instr) (s : State) (x : BitVec 16) : exec i { s with status := x } = exec i s := by
  cases i <;> rfl

/-- Settles O44: every effect ends in one response, and no arm reads `status`. -/
theorem statusIsWrittenAndNeverRead : Obligations.StatusIsWrittenAndNeverRead :=
  ⟨fun _ _ _ hexec => (exec_next hexec).response, exec_setStatus, illegalCommand_eq⟩

end Sys2Proof.Machine

/-! PROOFS, 20_memory.md: the little-endian integers, and the answer to every transaction that can be carried. -/

namespace Sys2Proof.Machine

/-! ## Byte order -/

/-- Byte `i` of the encoding is bits `8i+7..8i` (20_memory.md R43). -/
theorem leBytes_getElem? {n i w : Nat} (v : BitVec w) (hi : i < n) :
    (leBytes n v)[i]? = some (v.extractLsb' (8 * i) 8) := by
  simp [leBytes, hi]

/-- The low byte comes first, then the encoding of the value without it. -/
theorem leBytes_succ (n : Nat) {w : Nat} (v : BitVec w) :
    leBytes (n + 1) v = v.extractLsb' 0 8 :: leBytes n (v >>> 8) := by
  have hshift (i : Nat) : v.extractLsb' (8 * (i + 1)) 8 = (v >>> 8).extractLsb' (8 * i) 8 := by
    ext j
    simp only [BitVec.getElem_extractLsb', BitVec.getLsbD_ushiftRight]
    congr 1
    omega
  simp [leBytes, List.range_succ_eq_map, hshift]

/-- A value of any width reads back as its low `n` bytes. -/
theorem fromLe_leBytes (n : Nat) {w : Nat} (v : BitVec w) : fromLe (leBytes n v) = v.toNat % 2 ^ (8 * n) := by
  induction n generalizing v with
  | zero => simp [leBytes, fromLe, Nat.mod_one]
  | succ n ih =>
    have hpow : 2 ^ (8 * (n + 1)) = 256 * 2 ^ (8 * n) := by rw [Nat.mul_succ, Nat.pow_add, Nat.mul_comm]
    rw [leBytes_succ, fromLe, ih, hpow, Nat.mod_mul]
    simp [Nat.shiftRight_eq_div_pow]

/-- `from_le` is the library's digit sum, in base 256. -/
theorem fromLe_eq_ofDigits (b : Bytes) : fromLe b = Nat.ofDigits 256 (b.map BitVec.toNat) := by
  induction b with
  | nil => rfl
  | cons x rest ih => simp [fromLe, Nat.ofDigits_cons, ih]

theorem toNat_lt_of_mem_map_toNat {b : Bytes} : ∀ d ∈ b.map BitVec.toNat, d < 256 := by
  intro d hd
  obtain ⟨x, -, rfl⟩ := List.mem_map.mp hd
  exact x.isLt

theorem fromLe_lt (b : Bytes) : fromLe b < 2 ^ (8 * b.length) := by
  have hlt := Nat.ofDigits_lt_base_pow_length (by decide) (toNat_lt_of_mem_map_toNat (b := b))
  rwa [← fromLe_eq_ofDigits, List.length_map, show (256 : Nat) = 2 ^ 8 from rfl, ← Nat.pow_mul] at hlt

/-- Byte strings of one length are determined by their value. -/
theorem fromLe_injective_of_length {a b : Bytes} (hlen : a.length = b.length) (h : fromLe a = fromLe b) : a = b := by
  rw [fromLe_eq_ofDigits, fromLe_eq_ofDigits] at h
  have hdigits := Nat.ofDigits_inj_of_len_eq (by decide) (by simpa using hlen) toNat_lt_of_mem_map_toNat
    toNat_lt_of_mem_map_toNat h
  exact List.map_injective_iff.mpr (fun _ _ => BitVec.eq_of_toNat_eq) hdigits

/-- Settles O20: `from_le` inverts `le_N` by induction on the bytes, and is injective on strings of one length, so
`le_N` inverts it too. -/
theorem littleEndianIntegers : Obligations.LittleEndianIntegers := by
  refine ⟨fun n v => ⟨leBytes_length n v, ?_, fun i hi => leBytes_getElem? v hi⟩, fun b => ?_⟩
  · rw [fromLe_leBytes, Nat.mod_eq_of_lt v.isLt]
  · have hvalue : (BitVec.ofNat (8 * b.length) (fromLe b)).toNat = fromLe b := Nat.mod_eq_of_lt (fromLe_lt b)
    refine fromLe_injective_of_length (leBytes_length ..) ?_
    rw [fromLe_leBytes, hvalue, Nat.mod_eq_of_lt (fromLe_lt b)]

/-! ## Every carriable state answers -/

/-- No command writes the parameters or the host's pending events. -/
theorem CommandEffect.params_pending {i : Instr} {s t : State} (h : CommandEffect s i t) :
    t.params = s.params ∧ t.pending = s.pending := by
  cases h <;> exact ⟨rfl, rfl⟩

/-- A transaction that can be carried answers, with an illegal word as with a command, and writes neither the parameters
nor the pending events (30_encoding.md R60, R78). -/
theorem runTransaction_answers {tr : Transaction} {s : State} (h : carriable s.params tr.operands = true) :
    ∃ t, runTransaction tr s = .next t ∧ t.params = s.params ∧ t.pending = s.pending := by
  rw [runTransaction, if_pos h]
  split
  · exact ⟨_, illegalCommand_eq s, rfl, rfl⟩
  · next i _ =>
    obtain ⟨t, ht, heffect⟩ := exec_hasEffect i s
    exact ⟨t, ht, heffect.params_pending⟩

/-- Carriability passes to a state with the same parameters in which no other event is pending. -/
theorem State.Carriable.of_subset {s t : State} (h : s.Carriable) (hparams : t.params = s.params)
    (hpending : t.pending ⊆ s.pending) : t.Carriable :=
  fun tr htr => hparams ▸ h tr (hpending htr)

/-- Settles O40: the step waits, resets, or takes a transaction that can be carried; what stays pending was pending. -/
theorem theBlockAlwaysAnswers : Obligations.TheBlockAlwaysAnswers := by
  intro s hs
  unfold step
  split
  · exact ⟨s, rfl, rfl, hs⟩
  · next rest hp => exact ⟨_, rfl, rfl, hs.of_subset rfl (by simp [hp])⟩
  · next tr rest hp =>
    have hcarried : carriable (s.accept tr rest).params tr.operands = true := hs tr (by simp [hp])
    obtain ⟨t, ht, hparams, hpending⟩ := runTransaction_answers hcarried
    exact ⟨t, ht, hparams, hs.of_subset hparams (by simp [hp, hpending])⟩

end Sys2Proof.Machine

/-! PROOFS, 30_encoding.md: the command word and its decoder, the transport, the status word, modhex, and what is built
on them. -/

namespace Sys2Proof

open Machine (opcodeOf_eq_some decodeWord_commandWord)

/-! ## The fields of a command word -/

/-- A command word is its four fields (30_encoding.md R61). -/
theorem word_eq_iff_fields {v w : BitVec 16} :
    v = w ↔ rsvdOf v = rsvdOf w ∧ opcOf v = opcOf w ∧ tspOf v = tspOf w ∧ rndpOf v = rndpOf w := by
  refine ⟨fun h => by simp [h], fun ⟨hrsvd, hopc, htsp, hrndp⟩ => BitVec.eq_of_getLsbD_eq fun i hi => ?_⟩
  obtain h | rfl | rfl | h : i < 8 ∨ i = 8 ∨ i = 9 ∨ 10 ≤ i := by omega
  · simpa [opcOf, h] using congrArg (BitVec.getLsbD · i) hopc
  · exact htsp
  · exact hrndp
  · simpa [rsvdOf, show i - 10 < 6 by omega, Nat.add_sub_cancel' h] using congrArg (BitVec.getLsbD · (i - 10)) hrsvd

theorem rsvdOf_and (v w : BitVec 16) : rsvdOf (v &&& w) = rsvdOf v &&& rsvdOf w := BitVec.extractLsb'_and ..
theorem opcOf_and (v w : BitVec 16) : opcOf (v &&& w) = opcOf v &&& opcOf w := BitVec.extractLsb'_and ..
theorem tspOf_and (v w : BitVec 16) : tspOf (v &&& w) = (tspOf v && tspOf w) := BitVec.getLsbD_and
theorem rndpOf_and (v w : BitVec 16) : rndpOf (v &&& w) = (rndpOf v && rndpOf w) := BitVec.getLsbD_and

/-! ## The words that select a row -/

/-- A word selects the row with its `OPC`, if it has no reserved bit and the row allows its presence bits
(30_encoding.md R61, R62). -/
theorem decodeWord_eq_ok_iff {w : BitVec 16} {op : Opcode} : decodeWord w = .ok op ↔
    rsvdOf w = 0 ∧ opcOf w = op.opc ∧ (tspOf w = true → op.allowsTsp = true) ∧
      (rndpOf w = true → op.allowsRndp = true) := by
  rw [eq_comm (a := opcOf w), ← opcodeOf_eq_some, decodeWord]
  by_cases hrsvd : rsvdOf w = 0
  case neg => simp only [ne_eq, hrsvd, not_false_eq_true, if_true, false_and, reduceCtorEq]
  cases hopc : opcodeOf (opcOf w) with
  | none => simp [hrsvd]
  | some op' =>
    by_cases hop : op' = op
    · subst hop
      simp [hrsvd]
    · simp only [hrsvd, hop, ne_eq, not_true_eq_false, if_false, Option.some.injEq, false_and, and_false, iff_false]
      split <;> simp [hop]

/-- A legal word is the command word of its row and presence bits. -/
theorem commandWord_of_decodeWord {w : BitVec 16} {op : Opcode} (h : decodeWord w = .ok op) :
    commandWord op.opc (tspOf w) (rndpOf w) = w := by
  obtain ⟨hrsvd, hopc, htsp, hrndp⟩ := decodeWord_eq_ok_iff.mp h
  obtain ⟨hsame, htsp', hrndp'⟩ := decodeWord_commandWord htsp hrndp
  obtain ⟨hrsvd', hopc', -⟩ := decodeWord_eq_ok_iff.mp hsame
  exact word_eq_iff_fields.mpr ⟨hrsvd'.trans hrsvd.symm, hopc'.trans hopc.symm, htsp', hrndp'⟩

/-- The legal words, row by row and presence bit by presence bit (30_encoding.md R77). -/
theorem exists_decodeWord_iff_mem {w : BitVec 16} : (∃ op, decodeWord w = .ok op) ↔
    w ∈ ([0x0010, 0x0011, 0x0012, 0x0020, 0x0021, 0x0022, 0x0030, 0x0230, 0x0031, 0x0032, 0x0033, 0x0034, 0x0040,
      0x0140, 0x0041, 0x0241, 0x0042] : List (BitVec 16)) := by
  constructor
  · rintro ⟨op, h⟩
    obtain ⟨-, -, htsp, hrndp⟩ := decodeWord_eq_ok_iff.mp h
    rw [← commandWord_of_decodeWord h]
    generalize tspOf w = tsp at htsp ⊢
    generalize rndpOf w = rndp at hrndp ⊢
    cases tsp with
    | true =>
      obtain rfl : op = .devCreate := of_decide_eq_true (htsp rfl)
      obtain rfl : rndp = false := by simpa [Opcode.allowsRndp] using hrndp
      decide
    | false =>
      cases rndp with
      | true => obtain rfl | rfl : op = .tokPack ∨ op = .devGenerate := of_decide_eq_true (hrndp rfl) <;> decide
      | false => cases op <;> decide
  · intro h
    fin_cases h <;> exact ⟨_, rfl⟩

/-- A transaction is legal if its word is, whatever its bundle (30_encoding.md R63). -/
theorem decode_eq_ok_iff {w : BitVec 16} {o : Operands} {i : Instr} :
    decode w o = .ok i ↔ ∃ op, decodeWord w = .ok op ∧ commandOf op (tspOf w) (rndpOf w) o = i := by
  unfold decode
  split
  · next h => simp [h]
  · next h => simp [h]

theorem exists_decode_iff {w : BitVec 16} {o : Operands} :
    (∃ i, decode w o = .ok i) ↔ ∃ op, decodeWord w = .ok op := by
  simp [decode_eq_ok_iff]

/-- Settles O3: legality is the word's alone, and the legal words are listed above. -/
theorem seventeenLegalWords : Obligations.SeventeenLegalWords :=
  fun _ _ => exists_decode_iff.trans exists_decodeWord_iff_mem

/-! ## Commands and bundles -/

@[simp] theorem commandOf_opcode (op : Opcode) (tsp rndp : Bool) (o : Operands) :
    (commandOf op tsp rndp o).opcode = op := by
  cases op <;> rfl

theorem commandOf_tsp {op : Opcode} {tsp : Bool} (h : tsp = true → op.allowsTsp = true) (rndp : Bool) (o : Operands) :
    (commandOf op tsp rndp o).tsp = tsp := by
  cases tsp with
  | false => cases op <;> rfl
  | true =>
    obtain rfl : op = .devCreate := of_decide_eq_true (h rfl)
    rfl

theorem commandOf_rndp {op : Opcode} {rndp : Bool} (h : rndp = true → op.allowsRndp = true) (tsp : Bool)
    (o : Operands) : (commandOf op tsp rndp o).rndp = rndp := by
  cases rndp with
  | false => cases op <;> rfl
  | true => obtain rfl | rfl : op = .tokPack ∨ op = .devGenerate := of_decide_eq_true (h rfl) <;> rfl

/-- A `timestamp` operand stands only in a command whose row allows `TSP` (30_encoding.md R61). -/
theorem opcode_allowsTsp {i : Instr} (h : i.tsp = true) : i.opcode.allowsTsp = true := by
  cases i with
  | devCreate => rfl
  | _ => cases h

/-- A `random` operand stands only in a command whose row allows `RNDP` (30_encoding.md R61). -/
theorem opcode_allowsRndp {i : Instr} (h : i.rndp = true) : i.opcode.allowsRndp = true := by
  cases i with
  | tokPack => rfl
  | devGenerate => rfl
  | _ => cases h

/-- The lanes a command reads are the ones its encoding fills (30_encoding.md R65, R66). -/
theorem commandOf_encodeOperands (i : Instr) : commandOf i.opcode i.tsp i.rndp (encodeOperands i) = i := by
  cases i with
  | tokPack pid u t n random => cases random <;> rfl
  | devCreate pid i6 k u timestamp n => cases timestamp <;> rfl
  | devGenerate random => cases random <;> rfl
  | _ => rfl

theorem decode_encode (i : Instr) : decode (encodeWord i) (encodeOperands i) = .ok i := by
  obtain ⟨hword, htsp, hrndp⟩ := decodeWord_commandWord (op := i.opcode) opcode_allowsTsp opcode_allowsRndp
  refine decode_eq_ok_iff.mpr ⟨i.opcode, hword, ?_⟩
  rw [encodeWord, htsp, hrndp, commandOf_encodeOperands]

theorem encodeWord_of_decode {w : BitVec 16} {o : Operands} {i : Instr} (h : decode w o = .ok i) :
    encodeWord i = w := by
  obtain ⟨op, hword, rfl⟩ := decode_eq_ok_iff.mp h
  obtain ⟨-, -, htsp, hrndp⟩ := decodeWord_eq_ok_iff.mp hword
  rw [encodeWord, commandOf_opcode, commandOf_tsp htsp, commandOf_rndp hrndp, commandWord_of_decodeWord hword]

/-- Settles O1: the encoder's bits and lanes read back, and a legal word is the command word of its own fields. -/
theorem decodeAndEncodeAgree : Obligations.DecodeAndEncodeAgree := by
  refine ⟨decode_encode, fun w o i h => ?_⟩
  obtain rfl := encodeWord_of_decode h
  exact ⟨rfl, decode_encode i⟩

/-! ## The match/mask rows -/

/-- A row fixes `RSVD`, `OPC` and the presence bits that its command does not allow (30_encoding.md R62). -/
theorem opcodeTable_fields : ∀ r ∈ opcodeTable,
    (rsvdOf r.mask = BitVec.allOnes 6 ∧ rsvdOf r.matchBits = 0) ∧
    (opcOf r.mask = BitVec.allOnes 8 ∧ opcOf r.matchBits = r.opcode.opc) ∧
    (tspOf r.mask = !r.opcode.allowsTsp ∧ tspOf r.matchBits = false) ∧
    rndpOf r.mask = !r.opcode.allowsRndp ∧ rndpOf r.matchBits = false := by decide

/-- Matching a row, field by field, is selecting it. -/
theorem accepts_iff_decodeWord {r : TableRow} (hr : r ∈ opcodeTable) (w : BitVec 16) :
    r.accepts w = true ↔ decodeWord w = .ok r.opcode := by
  obtain ⟨⟨hrsvd, hrsvd'⟩, ⟨hopc, hopc'⟩, ⟨htsp, htsp'⟩, hrndp, hrndp'⟩ := opcodeTable_fields r hr
  rw [TableRow.accepts, beq_iff_eq, word_eq_iff_fields, rsvdOf_and, opcOf_and, tspOf_and, rndpOf_and, hrsvd, hrsvd',
    hopc, hopc', htsp, htsp', hrndp, hrndp', BitVec.and_allOnes, BitVec.and_allOnes, decodeWord_eq_ok_iff]
  simp

theorem exists_row (op : Opcode) : ∃ r ∈ opcodeTable, r.opcode = op := by
  cases op <;> decide

/-- The rows have different commands. -/
theorem length_filter_opcode_le (op : Opcode) : (opcodeTable.filter (op = ·.opcode)).length ≤ 1 := by
  cases op <;> decide

theorem length_filter_accepts_le (w : BitVec 16) : (opcodeTable.filter (·.accepts w)).length ≤ 1 := by
  cases h : decodeWord w with
  | error e =>
    have hnone : opcodeTable.filter (·.accepts w) = [] := by
      simp +contextual [accepts_iff_decodeWord, h]
    simp [hnone]
  | ok op =>
    have hsame : opcodeTable.filter (·.accepts w) = opcodeTable.filter (op = ·.opcode) :=
      List.filter_congr fun r hr => Bool.eq_iff_iff.mpr (by simp [accepts_iff_decodeWord hr, h])
    exact hsame ▸ length_filter_opcode_le op

/-- Some row accepts a word exactly if the decoder finds one. -/
theorem exists_accepts_iff (w : BitVec 16) :
    (∃ r ∈ opcodeTable, r.accepts w = true) ↔ ∃ op, decodeWord w = .ok op := by
  constructor
  · rintro ⟨r, hr, hw⟩
    exact ⟨_, (accepts_iff_decodeWord hr w).mp hw⟩
  · rintro ⟨op, hop⟩
    obtain ⟨r, hr, rfl⟩ := exists_row op
    exact ⟨r, hr, (accepts_iff_decodeWord hr w).mpr hop⟩

/-- Settles O2: a word matches exactly the row that it selects. -/
theorem legalWordsMatchTheOpcodeMap : Obligations.LegalWordsMatchTheOpcodeMap := by
  refine ⟨fun w o i h => ?_, fun w o r hr hw => ?_, length_filter_accepts_le, rfl⟩
  · obtain ⟨op, hword, rfl⟩ := decode_eq_ok_iff.mp h
    obtain ⟨r, hr, rfl⟩ := exists_row op
    exact ⟨r, hr, (accepts_iff_decodeWord hr w).mpr hword, commandOf_opcode ..⟩
  · exact ⟨_, decode_eq_ok_iff.mpr ⟨_, (accepts_iff_decodeWord hr w).mp hw, rfl⟩, commandOf_opcode ..⟩

/-! ## The three ways to be illegal -/

theorem Opcode.allowsTsp_iff (op : Opcode) : op.allowsTsp = true ↔ op.opc = 0x40 := by
  cases op <;> decide

theorem Opcode.allowsRndp_iff (op : Opcode) : op.allowsRndp = true ↔ op.opc = 0x30 ∨ op.opc = 0x41 := by
  cases op <;> decide

theorem exists_opc_iff (opc : BitVec 8) : (∃ op : Opcode, opc = op.opc) ↔ opc ∈
    ([0x10, 0x11, 0x12, 0x20, 0x21, 0x22, 0x30, 0x31, 0x32, 0x33, 0x34, 0x40, 0x41, 0x42] : List (BitVec 8)) := by
  constructor
  · rintro ⟨op, rfl⟩
    cases op <;> decide
  · intro h
    obtain ⟨op, -, hop⟩ := List.mem_map.mp (show opc ∈ allOpcodes.map Opcode.opc from h)
    exact ⟨op, hop.symm⟩

/-- A word is legal exactly outside the three cases of 30_encoding.md R63. -/
theorem exists_decodeWord_iff_fields (w : BitVec 16) : (∃ op, decodeWord w = .ok op) ↔
    rsvdOf w = 0 ∧ (∃ op : Opcode, opcOf w = op.opc) ∧ (tspOf w = true → opcOf w = 0x40) ∧
      (rndpOf w = true → opcOf w = 0x30 ∨ opcOf w = 0x41) := by
  simp only [decodeWord_eq_ok_iff, Opcode.allowsTsp_iff, Opcode.allowsRndp_iff]
  constructor
  · rintro ⟨op, hrsvd, hopc, hbits⟩
    exact ⟨hrsvd, ⟨op, hopc⟩, hopc ▸ hbits⟩
  · rintro ⟨hrsvd, ⟨op, hopc⟩, hbits⟩
    exact ⟨op, hrsvd, hopc, hopc ▸ hbits⟩

/-- Settles O4: each word's row and presence bits compute, whatever the bundle. -/
theorem writtenOutWordsDecode : Obligations.WrittenOutWordsDecode :=
  fun _ => ⟨rfl, rfl, rfl, rfl, rfl, rfl, rfl, rfl, rfl, rfl, rfl, rfl⟩

end Sys2Proof

namespace Sys2Proof.Machine

/-! ## The transport and the step -/

/-- With a finite limit a byte string fits exactly up to it (30_encoding.md R78). -/
theorem fits_of_limit {p : Config.Params} {limit : Nat} (h : p.maxOperandBytes = some limit) (n : Nat) :
    p.fits n = decide (n ≤ limit) := by
  simp [Config.Params.fits, h]

/-- Without a limit every bundle can be carried (30_encoding.md R78). -/
theorem carriable_of_unbounded {p : Config.Params} (h : p.maxOperandBytes = none) (o : Operands) :
    carriable p o = true := by
  simp [carriable, Config.Params.fits, h]

theorem commandOf_wf {p : Config.Params} {o : Operands} (h : carriable p o = true) (op : Opcode) (tsp rndp : Bool) :
    (commandOf op tsp rndp o).wf p = true := by
  simp only [carriable, Bool.and_eq_true] at h
  cases op <;> simp [commandOf, Instr.wf, Instr.byteStringLengths, h]

/-- Settles O5: a command's byte strings are lanes of its bundle. -/
theorem carriedCommandsAreWellFormed : Obligations.CarriedCommandsAreWellFormed := by
  intro p w o i hcarried h
  obtain ⟨op, -, rfl⟩ := decode_eq_ok_iff.mp h
  exact commandOf_wf hcarried ..

section Step

variable {s : State} {tr : Transaction} {rest : List HostEvent}

theorem step_of_command (h : s.pending = .command tr :: rest) : step s = runTransaction tr (s.accept tr rest) := by
  simp [step, h]

theorem runTransaction_of_ok {i : Instr} (hcarried : carriable s.params tr.operands = true)
    (h : decode tr.word tr.operands = .ok i) : runTransaction tr s = exec i s := by
  simp [runTransaction, hcarried, h]

theorem runTransaction_of_illegal (hcarried : carriable s.params tr.operands = true)
    (h : ¬ ∃ i, decode tr.word tr.operands = .ok i) : runTransaction tr s = illegalCommand s := by
  cases hd : decode tr.word tr.operands with
  | error e => simp only [runTransaction, hcarried, hd, if_true]
  | ok i => exact absurd ⟨i, hd⟩ h

theorem runTransaction_of_not_carriable (h : carriable s.params tr.operands = false) :
    runTransaction tr s = .refused .operandTooLong := by
  simp [runTransaction, h]

end Step

/-- Settles O6: `accept` takes the event off the queue and sets the ports. -/
theorem stepRunsTheDecodedCommand : Obligations.StepRunsTheDecodedCommand := by
  intro s tr rest i hp hcarried h
  rw [step_of_command hp, runTransaction_of_ok (s := s.accept tr rest) hcarried h]
  rfl

/-- Settles O7: a word that no row accepts does not decode, and the three cases are the decoder's conditions,
negated. -/
theorem illegalWordOnlyReportsStatus : Obligations.IllegalWordOnlyReportsStatus := by
  refine ⟨fun s tr rest hp hcarried hillegal => ?_, fun w => ?_⟩
  · have hdecode : ¬ ∃ i, decode tr.word tr.operands = .ok i := by
      rw [exists_decode_iff, ← exists_accepts_iff]
      simpa using hillegal
    rw [step_of_command hp, runTransaction_of_illegal (s := s.accept tr rest) hcarried hdecode]
    exact illegalCommand_eq _
  · have hlegal := (exists_accepts_iff w).trans (exists_decodeWord_iff_fields w)
    rw [exists_opc_iff, opcOf, rsvdOf, tspOf, rndpOf, or_iff_not_imp_left] at hlegal
    rw [← not_iff_not]
    push Not
    simp only [Bool.not_eq_false]
    exact hlegal

/-- Settles O8: one over-long lane makes the bundle one the transport cannot carry; without a limit every state
answers. -/
theorem overlongOperandGetsNoStep : Obligations.OverlongOperandGetsNoStep := by
  refine ⟨fun s tr rest limit hp hlimit hlong => ?_, fun s r hnone hrefused => ?_⟩
  · rw [step_of_command hp]
    refine runTransaction_of_not_carriable ?_
    simp only [accept_params, carriable, fits_of_limit hlimit, Bool.and_eq_false_iff, decide_eq_false_iff_not]
    omega
  · obtain ⟨t, ht, -⟩ := theBlockAlwaysAnswers s fun tr _ => carriable_of_unbounded hnone tr.operands
    simp [ht] at hrefused

/-! ## The status word -/

/-- The four fields of a status word read back (30_encoding.md R71). -/
theorem statusWord_fields (reason field cls : BitVec 4) :
    (statusWord reason field cls).extractLsb' 12 4 = 0 ∧ (statusWord reason field cls).extractLsb' 0 4 = cls ∧
      (statusWord reason field cls).extractLsb' 4 4 = field ∧
      (statusWord reason field cls).extractLsb' 8 4 = reason := by
  have skip {v w start : Nat} (h : w ≤ start) (hi : BitVec v) (lo : BitVec w) :
      (hi ++ lo).extractLsb' start 4 = hi.extractLsb' (start - w) 4 := BitVec.extractLsb'_append_eq_of_le h
  have here {v : Nat} (hi : BitVec v) (lo : BitVec 4) : (hi ++ lo).extractLsb' 0 4 = lo :=
    BitVec.extractLsb'_append_eq_right
  exact ⟨(skip (by decide) _ _).trans <| (skip (by decide) _ _).trans <| (skip (by decide) _ _).trans rfl,
    here .., (skip (by decide) _ _).trans (here ..),
    (skip (by decide) _ _).trans <| (skip (by decide) _ _).trans (here ..)⟩

/-- Settles O46: a ValidationError's word is its three codes side by side, the other errors' words are constants. -/
theorem statusWordLayout : Obligations.StatusWordLayout := by
  refine ⟨statusOk_eq, fun e => ?_⟩
  cases e with
  | validation field reason => exact statusWord_fields ..
  | checksum => exact ⟨by decide, errorStatus_checksum⟩
  | overflow => exact ⟨by decide, errorStatus_overflow⟩
  | state => exact ⟨by decide, errorStatus_state⟩
  | illegalCommand => exact ⟨by decide, errorStatus_illegalCommand⟩

/-! ## The status values of each command -/

/-- An outcome that answers with one of the listed status values. -/
def Reports (statuses : List (BitVec 16)) (o : Host.Outcome State Fault Refusal) : Prop :=
  ∃ t, o = .next t ∧ t.status ∈ statuses

theorem reports_complete {statuses : List (BitVec 16)} (h : 0x0000 ∈ statuses) (results : Results)
    (calls : List PortCall) (s : State) : Reports statuses (complete results calls s) :=
  ⟨_, complete_eq .., h⟩

theorem reports_raiseError {statuses : List (BitVec 16)} {e : CommandError} (h : errorStatus e ∈ statuses)
    (calls : List PortCall) (s : State) : Reports statuses (raiseError e calls s) :=
  ⟨_, raiseError_eq .., h⟩

/-- A command that needs loaded registers reports what it does with them, or StateError. -/
theorem reports_withInstance {statuses : List (BitVec 16)} {s : State}
    {k : DeviceRegs → Host.Outcome State Fault Refusal} (h : 0x0004 ∈ statuses) (hk : ∀ r, Reports statuses (k r)) :
    Reports statuses (withInstance s k) := by
  obtain ⟨r, -, -, he⟩ | ⟨-, he⟩ := withInstance_cases s k
  · exact he ▸ hk r
  · exact he ▸ ⟨_, rfl, h⟩

theorem execMhxDec_reports (text : Str) (s : State) : Reports [0x0000, 0x0171, 0x0271] (execMhxDec text s) := by
  unfold execMhxDec
  split
  · exact reports_raiseError (by decide) ..
  split
  · exact reports_raiseError (by decide) ..
  · exact reports_complete (by decide) ..

theorem execTokUnpack_reports (pt : Bytes16) (s : State) : Reports [0x0000, 0x0002] (execTokUnpack pt s) := by
  unfold execTokUnpack
  split
  · exact reports_raiseError (by decide) ..
  · exact reports_complete (by decide) ..

theorem execTokParse_reports (key : Bytes16) (otp : Str) (s : State) :
    Reports [0x0000, 0x0281, 0x0481, 0x0002] (execTokParse key otp s) := by
  unfold execTokParse
  split
  · exact reports_raiseError (by decide) ..
  extract_lets
  split
  · exact reports_raiseError (by decide) ..
  split
  · exact reports_raiseError (by decide) ..
  · exact reports_complete (by decide) ..

theorem execDevCreate_reports (publicId : Str) (privateId aesKey : Bytes) (u : BitVec 32) (ts : Option (BitVec 32))
    (n : BitVec 32) (s : State) :
    Reports ([0x0000, 0x0111, 0x0211, 0x0421, 0x0431, 0x0341, 0x0351, 0x0361] ++
      (if s.params.pidMaxChars = none then [] else [0x0411])) (execDevCreate publicId privateId aesKey u ts n s) := by
  unfold execDevCreate
  rcases hv : validateCreate s.params publicId privateId aesKey u ts n with e | ⟨pid, key⟩
  · refine reports_raiseError ?_ ..
    obtain ⟨rfl, hlimit⟩ | he := validateCreate_error hv
    · rw [if_neg hlimit]
      decide
    · refine List.mem_append_left _ ?_
      fin_cases he <;> decide
  · exact reports_complete (List.mem_append_left _ (by decide)) ..

theorem execDevGenerate_reports (random : Option (BitVec 16)) (s : State) :
    Reports [0x0000, 0x0003, 0x0004] (execDevGenerate random s) := by
  refine reports_withInstance (by decide) fun r => ?_
  split
  · exact reports_raiseError (by decide) ..
  · exact reports_complete (by decide) ..

theorem execDevSave_reports (s : State) : Reports [0x0000, 0x0004] (execDevSave s) :=
  reports_withInstance (by decide) fun _ => reports_complete (by decide) ..

/-- The status of an outcome that answered is a listed one. -/
theorem Reports.status_mem {statuses : List (BitVec 16)} {o : Host.Outcome State Fault Refusal} {t : State}
    (h : Reports statuses o) (ht : o = .next t) : t.status ∈ statuses := by
  obtain ⟨u, rfl, hu⟩ := h
  obtain rfl : u = t := by simpa using ht
  exact hu

/-- Settles O45; the last arm is the eight codec commands that have no error. -/
theorem statusValuesByCommand : Obligations.StatusValuesByCommand := by
  intro i s t h
  cases i with
  | mhxDec text => exact (execMhxDec_reports text s).status_mem h
  | tokUnpack pt => exact (execTokUnpack_reports pt s).status_mem h
  | tokParse key otp => exact (execTokParse_reports key otp s).status_mem h
  | devCreate pid i6 k u ts n => exact (execDevCreate_reports pid i6 k u ts n s).status_mem h
  | devGenerate random => exact (execDevGenerate_reports random s).status_mem h
  | devSave => exact (execDevSave_reports s).status_mem h
  | _ => exact (reports_complete (List.mem_singleton_self _) ..).status_mem h

/-! ## The modhex alphabet -/

/-- The upper-case codes are 0x20 below the lower-case ones, row by row (30_encoding.md R67). -/
theorem modhexUpper_eq_map : modhexUpper = modhexLower.map (· - 0x20) := by decide

theorem mhxChar_ofNat {i : Nat} (h : i < modhexLower.length) : mhxChar (BitVec.ofNat 4 i) = modhexLower[i] := by
  have hi : i % 16 = i := Nat.mod_eq_of_lt h
  simp [mhxChar, hi, List.getElem?_eq_getElem h]

/-- An accepted byte is the lower-case or the upper-case code of its row (30_encoding.md R67). -/
theorem eq_mhxChar_of_mhxVal {c : Byte} {n : BitVec 4} (h : mhxVal c = some n) :
    c = mhxChar n ∨ c = mhxChar n - 0x20 := by
  unfold mhxVal at h
  split at h
  · next i hlower =>
    obtain ⟨hi, rfl, -⟩ := List.idxOf?_eq_some_iff.mp hlower
    obtain rfl : BitVec.ofNat 4 i = n := by simpa using h
    exact .inl (mhxChar_ofNat hi).symm
  · obtain ⟨i, hupper, rfl⟩ := Option.map_eq_some_iff.mp h
    rw [modhexUpper_eq_map] at hupper
    obtain ⟨hi, rfl, -⟩ := List.idxOf?_eq_some_iff.mp hupper
    rw [mhxChar_ofNat (by simpa using hi), List.getElem_map]
    exact .inr rfl

theorem mhxVal_mhxChar_sub (n : BitVec 4) : mhxVal (mhxChar n - 0x20) = some n := by
  revert n; decide

theorem isModhex_iff (s : Str) : isModhex s = true ↔ s.length % 2 = 0 ∧ ∀ c ∈ s, mhxVal c ≠ none := by
  simp [isModhex, oddLength, hasForeignByte]

/-- Settles O11: the table row by row, and the decoder's two columns against the encoder's one. -/
theorem modhexAlphabet : Obligations.ModhexAlphabet := by
  refine ⟨by decide, fun c n => ⟨eq_mhxChar_of_mhxVal, ?_⟩, isModhex_iff⟩
  rintro (rfl | rfl)
  · exact mhxVal_mhxChar n
  · exact mhxVal_mhxChar_sub n

/-! ## The pseudo-commands -/

theorem reply_devSave {s : State} {r : DeviceRegs} (hf : s.fsmState = .created) (hd : s.dev = some r) :
    reply .devSave s = some (0x0000, .record (saveRecord s.params r)) := by
  simp [reply, exec, execDevSave, withInstance_created hf hd]

theorem exec_devCreate_of_valid {publicId : Str} {privateId aesKey : Bytes} {u : BitVec 32} {ts : Option (BitVec 32)}
    {n : BitVec 32} {s : State} {pid : Bytes6} {key : Bytes16}
    (h : validateCreate s.params publicId privateId aesKey u ts n = .ok (pid, key)) :
    exec (.devCreate publicId privateId aesKey u ts n) s =
      .next (((s.withRegs (createdRegs s.params publicId pid key u ts n s.ports)).withFsm .created).respond
        ⟨0x0000, .empty, seedCalls s.params ts ++ [.clockNow]⟩) := by
  simp [exec, execDevCreate, h]

/-- A 16-bit counter comes back from the 32-bit operand that carries it (43_device.md R170). -/
theorem extractLsb'_zeroExtend (u : BitVec 16) : (u.zeroExtend 32).extractLsb' 0 16 = u := by
  ext i hi
  simp [show i < 32 by omega, BitVec.getLsbD_eq_getElem hi]

/-- A record of valid identity registers with its counter in range passes the checks of 43_device.md R171. -/
theorem validateCreate_devLoad {p : Config.Params} {r : DeviceRegs} (hr : r.Ok p) {u : BitVec 16}
    (hu : u.toNat ≤ 0x7FFF) :
    validateCreate p r.publicId r.privateId.val r.aesKey.val (u.zeroExtend 32) none 0 =
      .ok (r.privateId, r.aesKey) := by
  have hwide : (u.zeroExtend 32).toNat = u.toNat := BitVec.toNat_setWidth_of_le (by decide)
  exact validateCreate_ok_iff.mpr ⟨hr.publicId, hr.publicIdLength, hwide ▸ hu, nofun, by decide, rfl, rfl⟩

/-- Settles O54: the registers of a state that meets the invariant pass the checks again, and the creation
copies them. -/
theorem loadRestoresTheSavedIdentity : Obligations.LoadRestoresTheSavedIdentity := by
  intro s r rec hinv hf hd hsave husage v hv
  obtain rfl : saveRecord s.params r = rec := by simpa [reply_devSave hf hd] using hsave
  have hvalid := validateCreate_devLoad (hv ▸ hinv.regs r hd) husage
  exact ⟨_, _, exec_devCreate_of_valid hvalid, rfl, rfl, rfl, rfl, extractLsb'_zeroExtend _, rfl, rfl, rfl⟩

/-- Settles O55: none of the three commands can fail, and each leaves the registers as they were. -/
theorem tokMakeIsPackEncryptFormat : Obligations.TokMakeIsPackEncryptFormat := by
  intro m s
  let pt := pack ⟨m.privateId, m.usageCounter, m.timestamp, m.sessionCounter, randomField m.random s.ports⟩
  let ct := aesEnc m.aesKey pt
  exact ⟨pt, ct, formatOtp m.publicId ct, randomFieldCalls m.random, [.aesEnc m.aesKey pt], [], rfl, rfl, rfl, rfl⟩

set_option maxRecDepth 20000 in
/-- Settles O56: the three lines are fixed texts, which the assembler evaluates. -/
theorem assemblyOfTheExampleLine : Obligations.AssemblyOfTheExampleLine := by
  unfold Obligations.AssemblyOfTheExampleLine
  exact ⟨by decide, by decide, by decide⟩

end Sys2Proof.Machine

/-! PROOFS, 40_modhex.md: the codec on strings, and the three commands that answer with it. -/

namespace Sys2Proof.Machine

/-! ## The codec on strings -/

/-- The decoder accepts the bytes of the two columns of the alphabet and no other (30_encoding.md R67). -/
theorem mhxVal_ne_none_iff {c : Byte} : mhxVal c ≠ none ↔ c ∈ modhexLower ∨ c ∈ modhexUpper := by
  unfold mhxVal
  split
  · next hlower =>
    obtain ⟨hi, rfl, -⟩ := List.idxOf?_eq_some_iff.mp hlower
    simp
  · next hlower => simp [List.idxOf?_eq_none_iff.mp hlower]

theorem isModhex_cons_cons {c d : Byte} {rest : Str} :
    isModhex (c :: d :: rest) = true ↔ mhxVal c ≠ none ∧ mhxVal d ≠ none ∧ isModhex rest = true := by
  simp only [isModhex_iff, List.length_cons, List.forall_mem_cons, add_assoc, Nat.reduceAdd, Nat.add_mod_right]
  tauto

/-- The decoder succeeds exactly on the modhex strings (40_modhex.md R104). -/
theorem exists_mhxDecode_iff (text : Str) : (∃ data, mhxDecode text = some data) ↔ isModhex text = true := by
  induction text using mhxDecode.induct_unfolding with
  | case1 => simp [isModhex_iff]
  | case2 c => simp [isModhex_iff]
  | case3 c d rest h l tail htail hl hh ih => simpa [isModhex_cons_cons, hl, hh, htail] using ih
  | case4 c d rest hfail ih =>
    simp only [reduceCtorEq, exists_false, isModhex_cons_cons, ← ih, Option.ne_none_iff_exists', false_iff]
    rintro ⟨⟨h, hh⟩, ⟨l, hl⟩, tail, htail⟩
    exact hfail h l tail hh hl htail

theorem mhxEncode_append_nibbles (h l : BitVec 4) (data : Bytes) :
    mhxEncode ((h ++ l : BitVec 8) :: data) = mhxChar h :: mhxChar l :: mhxEncode data := by
  have hhigh : (h ++ l : BitVec 8).extractLsb' 4 4 = h := BitVec.extractLsb'_append_eq_left
  have hlow : (h ++ l : BitVec 8).extractLsb' 0 4 = l := BitVec.extractLsb'_append_eq_right
  rw [mhxEncode, hhigh, hlow]

theorem mhxLower_cons {c : Byte} {n : BitVec 4} (h : mhxVal c = some n) (text : Str) :
    mhxLower (c :: text) = mhxChar n :: mhxLower text := by
  simp [mhxLower, h]

/-- Encoding what the decoder gives is the string in lower case (40_modhex.md R104). -/
theorem mhxEncode_of_mhxDecode {text : Str} {data : Bytes} (hdec : mhxDecode text = some data) :
    mhxEncode data = mhxLower text := by
  induction text using mhxDecode.induct_unfolding generalizing data with
  | case1 =>
    cases hdec
    rfl
  | case2 c => cases hdec
  | case3 c d rest h l tail htail hl hh ih =>
    cases hdec
    rw [mhxEncode_append_nibbles, mhxLower_cons hh, mhxLower_cons hl, ih htail]
  | case4 c d rest hfail ih => cases hdec

/-- A decoded string has two characters a byte (40_modhex.md R102). -/
theorem length_of_mhxDecode {text : Str} {data : Bytes} (hdec : mhxDecode text = some data) :
    2 * data.length = text.length := by
  simpa [mhxLower] using congrArg List.length (mhxEncode_of_mhxDecode hdec)

/-- Byte `j` of the data is written as characters `2j` and `2j+1`, the high nibble's first (40_modhex.md R101). -/
theorem mhxEncode_getElem? {data : Bytes} {j : Nat} {b : Byte} (h : data[j]? = some b) :
    (mhxEncode data)[2 * j]? = some (mhxChar (b.extractLsb' 4 4)) ∧
      (mhxEncode data)[2 * j + 1]? = some (mhxChar (b.extractLsb' 0 4)) := by
  induction data generalizing j with
  | nil => simp at h
  | cons x rest ih =>
    cases j with
    | zero =>
      obtain rfl : x = b := by simpa using h
      exact ⟨rfl, rfl⟩
    | succ j => exact ih (j := j) (by simpa using h)

/-- Byte `j` of the decoded data is read from characters `2j` and `2j+1` (40_modhex.md R102). -/
theorem mhxDecode_getElem? {text : Str} {data : Bytes} (hdec : mhxDecode text = some data) {j : Nat} {b : Byte}
    (hj : data[j]? = some b) : ∃ (c d : Byte) (h l : BitVec 4),
      text[2 * j]? = some c ∧ text[2 * j + 1]? = some d ∧ mhxVal c = some h ∧ mhxVal d = some l ∧ h ++ l = b := by
  induction text using mhxDecode.induct_unfolding generalizing data j with
  | case1 =>
    cases hdec
    simp at hj
  | case2 c => cases hdec
  | case3 c d rest h l tail htail hl hh ih =>
    cases hdec
    cases j with
    | zero => exact ⟨c, d, h, l, rfl, rfl, hh, hl, by simpa using hj⟩
    | succ j => exact ih htail (j := j) (by simpa using hj)
  | case4 c d rest hfail ih => cases hdec

theorem toNat_append_nibbles (h l : BitVec 4) : (h ++ l).toNat = h.toNat * 16 + l.toNat := by
  rw [BitVec.toNat_append, ← Nat.shiftLeft_add_eq_or_of_lt l.isLt, Nat.shiftLeft_eq]

/-! ## The three commands -/

theorem exec_mhxEnc (data : Bytes) (s : State) :
    exec (.mhxEnc data) s = .next (s.respond ⟨0x0000, .text (mhxEncode data), []⟩) := complete_eq ..

theorem exec_mhxValid (text : Str) (s : State) :
    exec (.mhxValid text) s = .next (s.respond ⟨0x0000, .valid (isModhex text), []⟩) := complete_eq ..

theorem exec_mhxDec_of_oddLength {text : Str} (h : text.length % 2 = 1) (s : State) :
    exec (.mhxDec text) s = .next (s.respond ⟨0x0171, .empty, []⟩) := by
  have herror : errorStatus (.validation .text .oddLength) = 0x0171 := by decide
  simp [exec, execMhxDec, oddLength, h, herror]

theorem exec_mhxDec_of_foreignByte {text : Str} (heven : text.length % 2 = 0) (h : ∃ c ∈ text, mhxVal c = none)
    (s : State) : exec (.mhxDec text) s = .next (s.respond ⟨0x0271, .empty, []⟩) := by
  have herror : errorStatus (.validation .text .alphabet) = 0x0271 := by decide
  have hdec : mhxDecode text = none := by
    refine Option.eq_none_iff_forall_ne_some.mpr fun data hdata => ?_
    obtain ⟨-, hval⟩ := (isModhex_iff text).mp ((exists_mhxDecode_iff text).mp ⟨data, hdata⟩)
    obtain ⟨c, hc, hnone⟩ := h
    exact hval c hc hnone
  simp [exec, execMhxDec, oddLength, heven, hdec, herror]

theorem exec_mhxDec_of_mhxDecode {text : Str} {data : Bytes} (h : mhxDecode text = some data) (s : State) :
    exec (.mhxDec text) s = .next (s.respond ⟨0x0000, .data data, []⟩) := by
  have heven : text.length % 2 = 0 := by
    rw [← length_of_mhxDecode h]
    exact Nat.mul_mod_right ..
  simp [exec, execMhxDec, oddLength, heven, h]

/-- What the host reads of an outcome is its one response. -/
theorem reply_of_exec {i : Instr} {s : State} {r : Response} (h : exec i s = .next (s.respond r)) :
    reply i s = some (r.status, r.results) := by
  simp [reply, h]

/-- `MHX_DEC` answers with data exactly if the string decodes (40_modhex.md R102). -/
theorem exists_reply_mhxDec_iff (text : Str) (s : State) :
    (∃ data, reply (.mhxDec text) s = some (0x0000, .data data)) ↔ isModhex text = true := by
  refine ⟨fun ⟨data, hreply⟩ => (isModhex_iff text).mpr ?_, fun h => ?_⟩
  · obtain heven | hodd := Nat.mod_two_eq_zero_or_one text.length
    · refine ⟨heven, fun c hc hnone => ?_⟩
      simp [reply_of_exec (exec_mhxDec_of_foreignByte heven ⟨c, hc, hnone⟩ s)] at hreply
    · simp [reply_of_exec (exec_mhxDec_of_oddLength hodd s)] at hreply
  · obtain ⟨data, hdec⟩ := (exists_mhxDecode_iff text).mpr h
    exact ⟨data, reply_of_exec (exec_mhxDec_of_mhxDecode hdec s)⟩

/-- Settles O15: the decoder inverts the encoder, which is so injective; the encoder inverts the decoder up to letter
case; and the decoder's domain is the valid strings. -/
theorem modhexLaws : Obligations.ModhexLaws := by
  refine ⟨fun b s => ⟨mhxEncode b, reply_of_exec (exec_mhxEnc b s), ?_⟩, fun t s ht => ?_, fun t s => ?_,
    fun a b s hreply => ?_⟩
  · exact reply_of_exec (exec_mhxDec_of_mhxDecode (mhxDecode_mhxEncode b) s)
  · obtain ⟨b, hdec⟩ := (exists_mhxDecode_iff t).mpr ht
    refine ⟨b, reply_of_exec (exec_mhxDec_of_mhxDecode hdec s), ?_⟩
    rw [reply_of_exec (exec_mhxEnc b s), mhxEncode_of_mhxDecode hdec]
  · rw [exists_reply_mhxDec_iff]
    simp [reply_of_exec (exec_mhxValid t s)]
  · have hencode : mhxEncode a = mhxEncode b := by
      simpa [reply_of_exec (exec_mhxEnc _ s)] using hreply
    exact Option.some.inj <| calc
      some a = mhxDecode (mhxEncode a) := (mhxDecode_mhxEncode a).symm
      _ = mhxDecode (mhxEncode b) := congrArg mhxDecode hencode
      _ = some b := mhxDecode_mhxEncode b

/-- Settles O12: the word is the one that decodes to the command, and the text is `mhxEncode data`. -/
theorem mhxEncEmitsTwoCharactersPerByte : Obligations.MhxEncEmitsTwoCharactersPerByte := fun data s =>
  ⟨encodeWord_of_decode (o := { data := data }) rfl, mhxEncode data, exec_mhxEnc data s, mhxEncode_length data, fun _ _ => mhxEncode_getElem?⟩

/-- Settles O13: one clause for each way `MHX_DEC` can end. -/
theorem mhxDecDecodesOrNamesTheError : Obligations.MhxDecDecodesOrNamesTheError := by
  refine fun text s => ⟨encodeWord_of_decode (o := { text := text }) rfl,
    fun hodd => exec_mhxDec_of_oddLength hodd s, fun heven hforeign => exec_mhxDec_of_foreignByte heven hforeign s,
    fun heven hval => ?_⟩
  obtain ⟨data, hdec⟩ := (exists_mhxDecode_iff text).mpr ((isModhex_iff text).mpr ⟨heven, hval⟩)
  refine ⟨data, exec_mhxDec_of_mhxDecode hdec s, length_of_mhxDecode hdec, fun j b hj => ?_⟩
  obtain ⟨c, d, h, l, hc, hd, hh, hl, rfl⟩ := mhxDecode_getElem? hdec hj
  exact ⟨c, d, h, l, hc, hd, hh, hl, toNat_append_nibbles h l⟩

/-- Settles O14: the bit is `isModhex text`, and the alphabet is the two columns of codes. -/
theorem mhxValidTestsTheString : Obligations.MhxValidTestsTheString := by
  refine fun text s => ⟨encodeWord_of_decode (o := { text := text }) rfl, isModhex text, exec_mhxValid text s, ?_⟩
  simp only [isModhex_iff, mhxVal_ne_none_iff]

end Sys2Proof.Machine

/-! PROOFS, 41_crc16.md: one round of the CRC as a linear injection, the accumulator over byte strings, and the three
commands that answer with it. -/

namespace Sys2Proof.Machine

/-! ## One round -/

/-- A round as an XOR of two terms that are each linear in the accumulator. -/
theorem crcRound_eq_xor (acc : BitVec 16) :
    crcRound acc = acc >>> 1 ^^^ (if acc.getLsbD 0 then Config.crcPoly else 0#16) := by
  unfold crcRound
  split <;> simp

theorem crcRound_of_lsb_clear {acc : BitVec 16} (h : acc.getLsbD 0 = false) : crcRound acc = acc >>> 1 := by
  simp [crcRound_eq_xor, h, -BitVec.getLsbD_eq_getElem]

theorem crcRound_xor (a b : BitVec 16) : crcRound (a ^^^ b) = crcRound a ^^^ crcRound b := by
  have hpoly (x y : Bool) : (if x ^^ y then Config.crcPoly else 0#16) =
      (if x then Config.crcPoly else 0#16) ^^^ (if y then Config.crcPoly else 0#16) := by
    revert x y; decide
  simp only [crcRound_eq_xor, BitVec.ushiftRight_xor_distrib, BitVec.getLsbD_xor, hpoly]
  ac_rfl

/-- The polynomial has bit 15 set and a shifted accumulator has it clear, so no round that XORs it in ends in 0. -/
theorem eq_zero_of_crcRound_eq_zero {acc : BitVec 16} (h : crcRound acc = 0#16) : acc = 0#16 := by
  have hlsb : acc.getLsbD 0 = false := by
    have hmsb : (crcRound acc).getLsbD 15 = acc.getLsbD 0 := by
      rw [crcRound_eq_xor]
      cases acc.getLsbD 0 <;> simp
    rw [← hmsb, h, BitVec.getLsbD_zero]
  have hshift : acc >>> 1 = 0#16 := (crcRound_of_lsb_clear hlsb).symm.trans h
  refine BitVec.eq_of_getLsbD_eq fun i hi => ?_
  cases i with
  | zero => simpa using hlsb
  | succ i => simpa [Nat.add_comm] using congrArg (·.getLsbD i) hshift

theorem crcRound_injective : Function.Injective crcRound := fun a b h =>
  BitVec.xor_eq_zero_iff.mp <| eq_zero_of_crcRound_eq_zero <| by rw [crcRound_xor, h, BitVec.xor_self]

/-! ## Several rounds -/

theorem crcRounds_eq_iterate (n : Nat) (acc : BitVec 16) : crcRounds n acc = crcRound^[n] acc := by
  induction n generalizing acc with
  | zero => rfl
  | succ n ih => exact ih (crcRound acc)

theorem crcRound_iterate_xor (n : Nat) (a b : BitVec 16) :
    crcRound^[n] (a ^^^ b) = crcRound^[n] a ^^^ crcRound^[n] b := by
  induction n generalizing a b with
  | zero => rfl
  | succ n ih => simp only [Function.iterate_succ_apply, crcRound_xor, ih]

theorem crcRound_iterate_eq_zero_iff {n : Nat} {acc : BitVec 16} : crcRound^[n] acc = 0#16 ↔ acc = 0#16 := by
  have hzero : crcRound^[n] 0#16 = 0#16 := Function.iterate_fixed (by decide) n
  exact ⟨fun h => crcRound_injective.iterate n (h.trans hzero.symm), fun h => h ▸ hzero⟩

/-- As long as the bits shifted out are 0, rounds only shift. -/
theorem crcRound_iterate_shiftLeft {n : Nat} {v : BitVec 16} (h : v.toNat * 2 ^ n < 2 ^ 16) :
    crcRound^[n] (v <<< n) = v := by
  induction n with
  | zero => simp
  | succ n ih =>
    have hdouble : v.toNat * 2 ^ (n + 1) = 2 * (v.toNat * 2 ^ n) := by ring
    have hfit : v.toNat * 2 ^ n < 2 ^ 16 := by omega
    have hround : crcRound (v <<< (n + 1)) = v <<< n := by
      rw [crcRound_of_lsb_clear (by simp)]
      refine BitVec.eq_of_toNat_eq ?_
      simp only [BitVec.toNat_ushiftRight, BitVec.toNat_shiftLeft, Nat.shiftLeft_eq, Nat.shiftRight_eq_div_pow]
      rw [Nat.mod_eq_of_lt h, Nat.mod_eq_of_lt hfit]
      omega
    rw [Function.iterate_succ_apply, hround, ih hfit]

set_option maxRecDepth 10000 in
/-- The orbit of 1 does not come back to 1 within 127 rounds. -/
theorem one_notMem_iterate_crcRound : 1#16 ∉ List.iterate crcRound (crcRound 1#16) 127 := by decide

/-- Different numbers of rounds below 128 apart take 1 to different values. -/
theorem crcRound_iterate_one_ne {m n : Nat} (hmn : n < m) (hclose : m < n + 128) :
    crcRound^[m] 1#16 ≠ crcRound^[n] 1#16 := fun h => by
  have hperiod : crcRound^[m - n] 1#16 = 1#16 := Function.iterate_cancel crcRound_injective h
  refine one_notMem_iterate_crcRound (List.mem_iterate.mpr ⟨m - n - 1, by omega, ?_⟩)
  rw [← Function.iterate_succ_apply, Nat.succ_eq_add_one, Nat.sub_add_cancel (by omega), hperiod]

/-! ## Bytes -/

theorem crcByte_eq_iterate (acc : BitVec 16) (b : Byte) :
    crcByte acc b = crcRound^[8] (acc ^^^ b.zeroExtend 16) := crcRounds_eq_iterate 8 _

theorem crcByte_xor (acc d : BitVec 16) (x y : Byte) :
    crcByte (acc ^^^ d) (x ^^^ y) = crcByte acc x ^^^ crcByte d y := by
  simp only [crcByte_eq_iterate, ← crcRound_iterate_xor, BitVec.zeroExtend, BitVec.setWidth_xor]
  ac_rfl

theorem crcFrom_cons (init : BitVec 16) (b : Byte) (data : Bytes) :
    crcFrom init (b :: data) = crcFrom (crcByte init b) data := rfl

/-- The CRC is linear in the initial value and the string together (41_crc16.md R126). -/
theorem crcFrom_xor (init d : BitVec 16) {a e : Bytes} (h : a.length = e.length) :
    crcFrom (init ^^^ d) (List.zipWith (· ^^^ ·) a e) = crcFrom init a ^^^ crcFrom d e := by
  induction a generalizing init d e with
  | nil => cases e with
    | nil => rfl
    | cons y e => cases h
  | cons x a ih => cases e with
    | nil => cases h
    | cons y e => simpa [crcFrom_cons, crcByte_xor] using ih _ _ (Nat.succ.inj h)

/-- A change of the initial value goes through eight rounds for each byte. -/
theorem crcFrom_xor_init (init d : BitVec 16) (data : Bytes) :
    crcFrom (init ^^^ d) data = crcFrom init data ^^^ crcRound^[8 * data.length] d := by
  induction data generalizing init d with
  | nil => rfl
  | cons b data ih =>
    have hbyte : crcByte (init ^^^ d) b = crcByte init b ^^^ crcRound^[8] d := by
      rw [crcByte_eq_iterate, crcByte_eq_iterate, ← crcRound_iterate_xor]
      ac_rfl
    rw [crcFrom_cons, crcFrom_cons, hbyte, ih, ← Function.iterate_add_apply, List.length_cons, Nat.mul_succ]

/-- Bit `i` of a byte reaches bit 0 in `i` of the eight rounds. -/
theorem crcByte_zero_bit {i : Nat} (hi : i < 8) : crcByte 0#16 (1#8 <<< i) = crcRound^[8 - i] 1#16 := by
  have hwiden : (0#16 ^^^ (1#8 <<< i).zeroExtend 16 : BitVec 16) = 1#16 <<< i := by
    revert i; decide
  have hfit : (1#16).toNat * 2 ^ i < 2 ^ 16 := by
    simpa using Nat.pow_lt_pow_right (n := 16) Nat.one_lt_two (by omega)
  calc crcByte 0#16 (1#8 <<< i)
    _ = crcRound^[8 - i + i] (1#16 <<< i) := by rw [crcByte_eq_iterate, hwiden, Nat.sub_add_cancel hi.le]
    _ = crcRound^[8 - i] 1#16 := by rw [Function.iterate_add_apply, crcRound_iterate_shiftLeft hfit]

theorem crcByte_flip (acc : BitVec 16) (x : Byte) {i : Nat} (hi : i < 8) :
    crcByte acc (x ^^^ 1#8 <<< i) = crcByte acc x ^^^ crcRound^[8 - i] 1#16 := by
  simpa [crcByte_zero_bit hi] using crcByte_xor acc 0#16 x (1#8 <<< i)

/-! ## Flipped bits -/

@[simp] theorem flipBit_length (i : Nat) (b : Bytes) : (flipBit i b).length = b.length := by
  simp [flipBit]

theorem flipBit_cons_of_lt {i : Nat} (hi : i < 8) (x : Byte) (b : Bytes) :
    flipBit i (x :: b) = (x ^^^ 1#8 <<< i) :: b := by
  simp [flipBit, Nat.div_eq_of_lt hi, Nat.mod_eq_of_lt hi]

theorem flipBit_cons_add (i : Nat) (x : Byte) (b : Bytes) : flipBit (i + 8) (x :: b) = x :: flipBit i b := by
  simp [flipBit]

/-- A flipped bit changes the CRC by the rounds that follow its own, applied to 1. -/
theorem crcFrom_flipBit (init : BitVec 16) {i : Nat} {b : Bytes} (hi : i < 8 * b.length) :
    crcFrom init (flipBit i b) = crcFrom init b ^^^ crcRound^[8 * b.length - i] 1#16 := by
  induction b generalizing init i with
  | nil => simp at hi
  | cons x b ih =>
    rw [List.length_cons] at hi ⊢
    obtain hlt | hge := Nat.lt_or_ge i 8
    · have hrounds : 8 * (b.length + 1) - i = 8 * b.length + (8 - i) := by omega
      rw [flipBit_cons_of_lt hlt, crcFrom_cons, crcFrom_cons, crcByte_flip _ _ hlt, crcFrom_xor_init, hrounds,
        Function.iterate_add_apply]
    · obtain ⟨k, rfl⟩ := Nat.exists_eq_add_of_le' hge
      have hrounds : 8 * (b.length + 1) - (k + 8) = 8 * b.length - k := by omega
      rw [flipBit_cons_add, crcFrom_cons, crcFrom_cons, ih _ (by omega), hrounds]

/-- Every one-bit change, at any length (41_crc16.md R126). -/
theorem crc16_flipBit_ne {i : Nat} {b : Bytes} (hi : i < 8 * b.length) : crc16 (flipBit i b) ≠ crc16 b := fun h => by
  have hzero := xor_left_eq_self_iff.mp ((crcFrom_flipBit _ hi).symm.trans h)
  exact absurd (crcRound_iterate_eq_zero_iff.mp hzero) (by decide)

/-- Every change of two bits less than 128 apart, at any length (41_crc16.md R126). -/
theorem crc16_flipBit_flipBit_ne {i j : Nat} {b : Bytes} (hi : i < 8 * b.length) (hj : j < 8 * b.length)
    (hne : i ≠ j) (hij : i < j + 128) (hji : j < i + 128) : crc16 (flipBit i (flipBit j b)) ≠ crc16 b := fun h => by
  have hsame : crcRound^[8 * b.length - j] 1#16 = crcRound^[8 * b.length - i] 1#16 := by
    have hchange : crc16 (flipBit i (flipBit j b)) =
        crc16 b ^^^ (crcRound^[8 * b.length - j] 1#16 ^^^ crcRound^[8 * b.length - i] 1#16) := by
      rw [crc16, crcFrom_flipBit _ (by simpa using hi), crcFrom_flipBit _ hj, flipBit_length, crc16, BitVec.xor_assoc]
    exact BitVec.xor_eq_zero_iff.mp (xor_left_eq_self_iff.mp (hchange.symm.trans h))
  obtain hlt | hgt := Nat.lt_or_gt_of_ne hne
  · exact crcRound_iterate_one_ne (by omega) (by omega) hsame.symm
  · exact crcRound_iterate_one_ne (by omega) (by omega) hsame

/-! ## The residual -/

/-- The two bytes of a 16-bit integer, each moved to its place, give it back. -/
theorem bytes_xor (v : BitVec 16) :
    (v.extractLsb' 0 8).zeroExtend 16 ^^^ (v.extractLsb' 8 8).zeroExtend 16 <<< 8 = v := by
  refine BitVec.eq_of_getLsbD_eq fun i hi => ?_
  obtain hlow | hhigh := Nat.lt_or_ge i 8
  · simp [hi, hlow]
  · obtain ⟨k, rfl⟩ := Nat.exists_eq_add_of_le hhigh
    simp [hi, show k < 8 by omega]

/-- Two bytes are one 16-bit XOR before sixteen rounds: the second byte passes the first eight rounds unchanged. -/
theorem crcByte_crcByte (acc : BitVec 16) (lo hi : Byte) :
    crcByte (crcByte acc lo) hi = crcRound^[16] (acc ^^^ (lo.zeroExtend 16 ^^^ hi.zeroExtend 16 <<< 8)) := by
  have hpass : crcRound^[8] (hi.zeroExtend 16 <<< 8) = hi.zeroExtend 16 :=
    crcRound_iterate_shiftLeft (by rw [BitVec.zeroExtend, BitVec.toNat_setWidth]; omega)
  calc crcByte (crcByte acc lo) hi
    _ = crcRound^[8] (crcRound^[8] (acc ^^^ lo.zeroExtend 16) ^^^ crcRound^[8] (hi.zeroExtend 16 <<< 8)) := by
      rw [crcByte_eq_iterate, crcByte_eq_iterate, hpass]
    _ = crcRound^[8 + 8] (acc ^^^ (lo.zeroExtend 16 ^^^ hi.zeroExtend 16 <<< 8)) := by
      rw [← crcRound_iterate_xor, ← Function.iterate_add_apply, BitVec.xor_assoc]

theorem crcFrom_leBytes (init v : BitVec 16) : crcFrom init (leBytes 2 v) = crcRound^[16] (init ^^^ v) :=
  (crcByte_crcByte ..).trans (by rw [bytes_xor])

set_option maxRecDepth 10000 in
/-- Where the residual comes from: sixteen rounds from all ones (41_crc16.md R122). -/
theorem crcRound_iterate_allOnes : crcRound^[16] (BitVec.allOnes 16) = Config.crcResidual := by decide

/-- The accumulator and its complement XOR to all ones, whatever the string (41_crc16.md R126). -/
theorem crc16_append_cksumField (p : Bytes) : crc16 (p ++ cksumField p) = Config.crcResidual := by
  have hones : crc16 p ^^^ ~~~crc16 p = BitVec.allOnes 16 := by
    rw [← BitVec.xor_allOnes, ← BitVec.xor_assoc, BitVec.xor_self, BitVec.zero_xor]
  calc crc16 (p ++ cksumField p)
    _ = crcFrom (crc16 p) (leBytes 2 (~~~crc16 p)) := crcFrom_append ..
    _ = crcRound^[16] (BitVec.allOnes 16) := by rw [crcFrom_leBytes, hones]
    _ = Config.crcResidual := crcRound_iterate_allOnes

/-- Settles O19: the residual law, the two detection laws at 16 bytes, and linearity with the initial values 0xFFFF and
0. -/
theorem crcResidualAndDetection : Obligations.CrcResidualAndDetection := by
  refine ⟨crc16_append_cksumField, fun b hlen hcrc i hi => ?_, fun b hlen hcrc i hi j hj hij => ?_, fun a e hlen => ?_⟩
  · exact hcrc ▸ crc16_flipBit_ne (by omega)
  · exact hcrc ▸ crc16_flipBit_flipBit_ne (by omega) (by omega) hij (by omega) (by omega)
  · exact crcFrom_xor Config.crcInit 0 hlen

/-! ## The three commands -/

theorem exec_crc16 (data : Bytes) (s : State) :
    exec (.crc16 data) s = .next (s.respond ⟨0x0000, .crc (crc16 data), []⟩) := complete_eq ..

theorem exec_crcVerify (data : Bytes) (s : State) :
    exec (.crcVerify data) s = .next (s.respond ⟨0x0000, .ok (crcVerify data), []⟩) := complete_eq ..

theorem exec_crcField (data : Bytes) (s : State) :
    exec (.crcField data) s = .next (s.respond ⟨0x0000, .field (cksumField data), []⟩) := complete_eq ..

theorem crcVerify_iff (data : Bytes) : crcVerify data = true ↔ crc16 data = Config.crcResidual := beq_iff_eq

/-- The accumulator reads its string from the left (41_crc16.md R120). -/
theorem crc16_append_singleton (data : Bytes) (b : Byte) :
    crc16 (data ++ [b]) = crcRound^[8] (crc16 data ^^^ b.zeroExtend 16) :=
  (crcFrom_append ..).trans (crcByte_eq_iterate ..)

theorem fromLe_cksumField (data : Bytes) : fromLe (cksumField data) = 0xFFFF - (crc16 data).toNat := by
  rw [cksumField, fromLe_leBytes, Nat.mod_eq_of_lt (BitVec.isLt _), BitVec.toNat_not]

set_option maxRecDepth 10000 in
/-- Settles O16: the answer is `crc16 data`, and the accumulator takes one byte at a time. -/
theorem crc16Accumulates : Obligations.Crc16Accumulates :=
  ⟨fun data s => ⟨encodeWord_of_decode (o := { data := data }) rfl, exec_crc16 data s⟩, rfl, crc16_append_singleton,
    by decide, by decide, by decide, by decide⟩

/-- Settles O17: the bit is `crcVerify data`, the test for the residual. -/
theorem crcVerifyTestsTheResidual : Obligations.CrcVerifyTestsTheResidual := by
  refine ⟨fun data s => ?_, fun s => reply_of_exec (exec_crcVerify [] s), fun p s => ?_⟩
  · exact ⟨encodeWord_of_decode (o := { data := data }) rfl, crcVerify data, exec_crcVerify data s, crcVerify_iff data⟩
  · have hbit : crcVerify (p ++ cksumField p) = true := (crcVerify_iff _).mpr (crc16_append_cksumField p)
    rw [reply_of_exec (exec_crcVerify _ s), hbit]

set_option maxRecDepth 10000 in
/-- Settles O18: the field is the two bytes of the complement, whose value `fromLe` reads. -/
theorem crcFieldIsTheComplement : Obligations.CrcFieldIsTheComplement := by
  refine ⟨fun data s => ?_, fun s => reply_of_exec (exec_crcField [] s), fun s => ?_⟩
  · refine ⟨encodeWord_of_decode (o := { data := data }) rfl, (~~~crc16 data).extractLsb' 0 8,
      (~~~crc16 data).extractLsb' 8 8, exec_crcField data s, ?_⟩
    exact fromLe_cksumField data
  · have hfield : cksumField [0x11, 0x22, 0x33, 0x44, 0x55, 0x66, 0x00, 0x00, 0x03, 0x02, 0x01, 0x00, 0x34, 0x12] =
        [0xB3, 0xDB] := by decide
    rw [reply_of_exec (exec_crcField _ s), hfield]

end Sys2Proof.Machine

/-! PROOFS, 42_token.md: plaintexts and their fields, the OTP string, and the five commands that answer with them. -/

namespace Sys2Proof.Machine

/-! ## Slices and little-endian integers -/

theorem slice_append_slice (b : Bytes) {i j k : Nat} (hij : i ≤ j) (hjk : j ≤ k) :
    slice b i j ++ slice b j k = slice b i k := by
  have hdrop : b.drop j = (b.drop i).drop (j - i) := by rw [List.drop_drop, Nat.add_sub_cancel' hij]
  have hwidth : k - i = j - i + (k - j) := by omega
  rw [slice, slice, slice, hdrop, hwidth, List.take_add]

/-- A slice inside the string begins with the byte at its first offset. -/
theorem slice_eq_cons {b : Bytes} {i j : Nat} (hij : i < j) (hj : j ≤ b.length) :
    slice b i j = b[i] :: slice b (i + 1) j := by
  have hwidth : j - i = j - (i + 1) + 1 := by omega
  rw [slice, slice, List.drop_eq_getElem_cons (by omega), hwidth, List.take_succ_cons]

@[simp] theorem slice_self (b : Bytes) (i : Nat) : slice b i i = [] := by
  simp [slice]

@[simp] theorem slice_append_left (a b : Bytes) : slice (a ++ b) 0 a.length = a := by
  simp [slice]

theorem slice_append_right (a : Bytes) {b : Bytes} {n : Nat} (hb : b.length = n) :
    slice (a ++ b) a.length (a.length + n) = b := by
  simp [slice, ← hb]

theorem fromLe_slice_eq_add {b : Bytes} {i j : Nat} (hij : i < j) (hj : j ≤ b.length) :
    fromLe (slice b i j) = (b.getD i 0).toNat + 256 * fromLe (slice b (i + 1) j) := by
  rw [slice_eq_cons hij hj, fromLe, List.getD_eq_getElem]

theorem leBytes_fromLe {n : Nat} {b : Bytes} (h : b.length = n) : leBytes n (BitVec.ofNat (8 * n) (fromLe b)) = b := by
  obtain ⟨-, hinverse⟩ := littleEndianIntegers
  exact h ▸ hinverse b

theorem leBytes_injective (n : Nat) : Function.Injective fun v : BitVec (8 * n) => leBytes n v :=
  Function.LeftInverse.injective (g := fun b => BitVec.ofNat (8 * n) (fromLe b)) fun v => by
    simp [fromLe_leBytes]

theorem length_slice_block (pt : Bytes16) {i j : Nat} (hj : j ≤ 16) : (slice pt.val i j).length = j - i :=
  slice_length _ _ _ (by rwa [pt.property])

/-- `n` bytes of a block fit the integer of `8n` bits that `from_le` gives them (20_memory.md R43). -/
theorem toNat_ofNat_fromLe_slice {n i j : Nat} (pt : Bytes16) (hj : j ≤ 16) (hn : j - i = n) :
    (BitVec.ofNat (8 * n) (fromLe (slice pt.val i j))).toNat = fromLe (slice pt.val i j) := by
  subst hn
  exact Nat.mod_eq_of_lt (length_slice_block pt hj ▸ fromLe_lt _)

theorem fromLe_slice_two (pt : Bytes16) {i : Nat} (hi : i + 2 ≤ 16) :
    fromLe (slice pt.val i (i + 2)) = (pt.val.getD i 0).toNat + 256 * (pt.val.getD (i + 1) 0).toNat := by
  have hlen : i + 2 ≤ pt.val.length := by rwa [pt.property]
  rw [fromLe_slice_eq_add (by omega) hlen, fromLe_slice_eq_add (by omega) hlen, slice_self]
  rfl

/-! ## Plaintexts -/

/-- After a string, its checksum field is the only two bytes that leave the residual (41_crc16.md R126): sixteen rounds
are injective. -/
theorem crc16_append_eq_residual_iff (p : Bytes) {c : Bytes} (hc : c.length = 2) :
    crc16 (p ++ c) = Config.crcResidual ↔ c = cksumField p := by
  refine ⟨fun h => ?_, fun h => h ▸ crc16_append_cksumField p⟩
  obtain ⟨v, rfl⟩ : ∃ v : BitVec 16, leBytes 2 v = c := ⟨_, leBytes_fromLe hc⟩
  have hones : crc16 p ^^^ v = BitVec.allOnes 16 := crcRound_injective.iterate 16 <| calc
    crcRound^[16] (crc16 p ^^^ v) = crc16 (p ++ leBytes 2 v) := (crcFrom_leBytes ..).symm.trans (crcFrom_append ..).symm
    _ = crcRound^[16] (BitVec.allOnes 16) := h.trans crcRound_iterate_allOnes.symm
  have hcomplement : ~~~crc16 p = v := by
    rw [← BitVec.xor_allOnes, ← hones, ← BitVec.xor_assoc, BitVec.xor_self, BitVec.zero_xor]
  rw [cksumField, hcomplement]

theorem pack_val (f : TokenFields) : (pack f).val = packBody f ++ cksumField (packBody f) := rfl

/-- The body by its offsets, before whatever follows it (30_encoding.md R68). -/
theorem packBody_append (f : TokenFields) (rest : Bytes) : packBody f ++ rest = f.privateId.val ++
    f.usageCounter.extractLsb' 0 8 :: f.usageCounter.extractLsb' 8 8 :: f.timestamp.extractLsb' 0 8 ::
      f.timestamp.extractLsb' 8 8 :: f.timestamp.extractLsb' 16 8 :: f.sessionCounter ::
      f.random.extractLsb' 0 8 :: f.random.extractLsb' 8 8 :: rest := by
  simp [packBody, leBytes, List.range_succ]

theorem take_pack (f : TokenFields) : (pack f).val.take 14 = packBody f :=
  List.take_left' (packBody_length f)

/-- Each field stands at its own offset. -/
theorem packBody_injective : Function.Injective packBody := by
  rintro ⟨pid, u, t, n, r⟩ ⟨pid', u', t', n', r'⟩ h
  obtain ⟨h, hr⟩ := List.append_inj' h (by simp)
  obtain ⟨h, hn⟩ := List.append_inj' h rfl
  obtain ⟨h, ht⟩ := List.append_inj' h (by simp)
  obtain ⟨hpid, hu⟩ := List.append_inj' h (by simp)
  obtain rfl := Subtype.ext hpid
  obtain rfl : u = u' := leBytes_injective 2 hu
  obtain rfl : t = t' := leBytes_injective 3 ht
  obtain rfl : n = n' := List.singleton_inj.mp hn
  obtain rfl : r = r' := leBytes_injective 2 hr
  rfl

theorem pack_injective : Function.Injective pack := fun f g h =>
  packBody_injective <| by rw [← take_pack, h, take_pack]

/-- The slices that `fieldsOf` reads lie side by side. -/
theorem packBody_fieldsOf (pt : Bytes16) : packBody (fieldsOf pt) = slice pt.val 0 14 := by
  have hpid : (fieldsOf pt).privateId.val = slice pt.val 0 6 := rfl
  have husage : leBytes 2 (fieldsOf pt).usageCounter = slice pt.val 6 8 :=
    leBytes_fromLe (length_slice_block pt (by decide))
  have htime : leBytes 3 (fieldsOf pt).timestamp = slice pt.val 8 11 :=
    leBytes_fromLe (length_slice_block pt (by decide))
  have hsession : [(fieldsOf pt).sessionCounter] = slice pt.val 11 12 := by
    rw [slice_eq_cons (by decide) (by simp [pt.property]), slice_self]
    rfl
  have hrandom : leBytes 2 (fieldsOf pt).random = slice pt.val 12 14 :=
    leBytes_fromLe (length_slice_block pt (by decide))
  rw [packBody, hpid, husage, htime, hsession, hrandom]
  rw [slice_append_slice, slice_append_slice, slice_append_slice, slice_append_slice] <;> decide

/-- A plaintext whose residual holds is the packing of its own fields. -/
theorem pack_fieldsOf {pt : Bytes16} (h : crc16 pt.val = Config.crcResidual) : pack (fieldsOf pt) = pt := by
  have hsplit : slice pt.val 0 14 ++ slice pt.val 14 16 = pt.val := by
    rw [slice_append_slice _ (by decide) (by decide), slice, List.drop_zero, List.take_of_length_le pt.property.le]
  have hcksum : slice pt.val 14 16 = cksumField (slice pt.val 0 14) :=
    (crc16_append_eq_residual_iff _ (length_slice_block pt le_rfl)).mp (by rwa [hsplit])
  refine Subtype.ext ?_
  rw [pack_val, packBody_fieldsOf, ← hcksum, hsplit]

theorem unpack_of_crc16_eq {pt : Bytes16} (h : crc16 pt.val = Config.crcResidual) :
    unpack pt = some (fieldsOf pt) := if_pos h

theorem unpack_of_crc16_ne {pt : Bytes16} (h : crc16 pt.val ≠ Config.crcResidual) : unpack pt = none := if_neg h

/-- `unpack` gives fields on their own packing and nowhere else (42_token.md R142). -/
theorem unpack_eq_some_iff {pt : Bytes16} {f : TokenFields} : unpack pt = some f ↔ pack f = pt := by
  constructor
  · intro h
    obtain ⟨hcrc, hf⟩ := Option.ite_none_right_eq_some.mp h
    exact Option.some.inj hf ▸ pack_fieldsOf hcrc
  · rintro rfl
    have hcrc : crc16 (pack f).val = Config.crcResidual := crc16_append_cksumField _
    rw [unpack_of_crc16_eq hcrc, pack_injective (pack_fieldsOf hcrc)]

/-! ## The ciphertext in an OTP -/

theorem mhxBlock_eq_some_iff {enc : Str} {ct : Bytes16} : mhxBlock enc = some ct ↔ mhxDecode enc = some ct.val := by
  simp [mhxBlock, Option.bind_eq_some_iff, asBytesN_eq_some]

/-- 32 characters hold a ciphertext exactly if they are modhex (42_token.md R146 step 2). -/
theorem exists_mhxBlock_iff {enc : Str} (henc : enc.length = 32) :
    (∃ ct, mhxBlock enc = some ct) ↔ isModhex enc = true := by
  simp only [mhxBlock_eq_some_iff, ← exists_mhxDecode_iff]
  refine ⟨fun ⟨ct, hct⟩ => ⟨ct.val, hct⟩, fun ⟨data, hdata⟩ => ?_⟩
  have hlen := length_of_mhxDecode hdata
  exact ⟨⟨data, by omega⟩, hdata⟩

theorem mhxEncode_length_of_block (ct : Bytes16) : (mhxEncode ct.val).length = 32 := by
  rw [mhxEncode_length, ct.property]

/-- `AES_ENC` inverts `AES_DEC` too (60_exceptions.md R212). -/
@[simp] theorem aesEnc_aesDec (key block : Bytes16) : aesEnc key (aesDec key block) = block :=
  (Config.aesPermutation key).apply_symm_apply block

/-! ## The five commands -/

theorem exec_tokPack (pid : Bytes6) (u : BitVec 16) (t : BitVec 24) (n : BitVec 8) (random : Option (BitVec 16))
    (s : State) : exec (.tokPack pid u t n random) s = .next (s.respond
      ⟨0x0000, .plaintext (pack ⟨pid, u, t, n, randomField random s.ports⟩), randomFieldCalls random⟩) := complete_eq ..

theorem reply_tokPack_some (pid : Bytes6) (u : BitVec 16) (t : BitVec 24) (n : BitVec 8) (v : BitVec 16) (s : State) :
    reply (.tokPack pid u t n (some v)) s = some (0x0000, .plaintext (pack ⟨pid, u, t, n, v⟩)) :=
  reply_of_exec (exec_tokPack ..)

theorem exec_tokUnpack_of_none {pt : Bytes16} (h : unpack pt = none) (s : State) :
    exec (.tokUnpack pt) s = .next (s.respond ⟨0x0002, .empty, []⟩) := by
  simp [exec, execTokUnpack, h]

theorem exec_tokUnpack_of_some {pt : Bytes16} {f : TokenFields} (h : unpack pt = some f) (s : State) :
    exec (.tokUnpack pt) s = .next (s.respond ⟨0x0000, .fields f, []⟩) := by
  simp [exec, execTokUnpack, h]

theorem exec_tokEncrypt (pt key : Bytes16) (s : State) : exec (.tokEncrypt pt key) s =
    .next (s.respond ⟨0x0000, .ciphertext (aesEnc key pt), [.aesEnc key pt]⟩) := complete_eq ..

theorem exec_tokFormat (pid : Str) (ct : Bytes16) (s : State) : exec (.tokFormat pid ct) s =
    .next (s.respond ⟨0x0000, .otp (pid ++ mhxEncode ct.val), []⟩) := complete_eq ..

theorem exec_tokParse_of_short {otp : Str} (h : otp.length < 32) (key : Bytes16) (s : State) :
    exec (.tokParse key otp) s = .next (s.respond ⟨0x0481, .empty, []⟩) := by
  have herror : errorStatus (.validation .otp .length) = 0x0481 := by decide
  simp [exec, execTokParse, h, herror]

/-- The other OTPs are a prefix and 32 characters (42_token.md R146). -/
theorem exists_append_of_le_length {otp : Str} (h : 32 ≤ otp.length) :
    ∃ pub enc : Str, enc.length = 32 ∧ pub ++ enc = otp :=
  ⟨otp.take (otp.length - 32), otp.drop (otp.length - 32), by simp; omega, List.take_append_drop ..⟩

section Parse

variable {enc : Str} {ct : Bytes16}

theorem take_append_block (pub : Str) (henc : enc.length = 32) :
    (pub ++ enc).take ((pub ++ enc).length - 32) = pub := by
  simp [henc]

theorem drop_append_block (pub : Str) (henc : enc.length = 32) :
    (pub ++ enc).drop ((pub ++ enc).length - 32) = enc := by
  simp [henc]

theorem exec_tokParse_of_not_modhex (henc : enc.length = 32) (h : isModhex enc = false) (key : Bytes16) (pub : Str)
    (s : State) : exec (.tokParse key (pub ++ enc)) s = .next (s.respond ⟨0x0281, .empty, []⟩) := by
  have herror : errorStatus (.validation .otp .alphabet) = 0x0281 := by decide
  have hblock : mhxBlock enc = none := by
    rw [Option.eq_none_iff_forall_ne_some, ← not_exists, exists_mhxBlock_iff henc, h]
    decide
  simp [exec, execTokParse, slice_append_right pub henc, henc, hblock, herror]

theorem exec_tokParse_of_unpack_none (henc : enc.length = 32) (hblock : mhxBlock enc = some ct) {key : Bytes16}
    (h : unpack (aesDec key ct) = none) (pub : Str) (s : State) :
    exec (.tokParse key (pub ++ enc)) s = .next (s.respond ⟨0x0002, .empty, [.aesDec key ct]⟩) := by
  simp [exec, execTokParse, slice_append_right pub henc, henc, hblock, h]

theorem exec_tokParse_of_unpack_some (henc : enc.length = 32) (hblock : mhxBlock enc = some ct) {key : Bytes16}
    {f : TokenFields} (h : unpack (aesDec key ct) = some f) (pub : Str) (s : State) :
    exec (.tokParse key (pub ++ enc)) s = .next (s.respond ⟨0x0000, .parsed pub f, [.aesDec key ct]⟩) := by
  simp [exec, execTokParse, slice_append_right pub henc, henc, hblock, h]

/-- How `TOK_PARSE` can end past its length check (42_token.md R146). -/
inductive ParseEnd (key : Bytes16) (pub enc : Str) : Response → Prop
  | notModhex (h : isModhex enc = false) : ParseEnd key pub enc ⟨0x0281, .empty, []⟩
  | checksum {ct : Bytes16} (hblock : mhxBlock enc = some ct) (h : unpack (aesDec key ct) = none) :
      ParseEnd key pub enc ⟨0x0002, .empty, [.aesDec key ct]⟩
  | parsed {ct : Bytes16} {f : TokenFields} (hblock : mhxBlock enc = some ct) (h : unpack (aesDec key ct) = some f) :
      ParseEnd key pub enc ⟨0x0000, .parsed pub f, [.aesDec key ct]⟩

theorem exists_parseEnd (henc : enc.length = 32) (key : Bytes16) (pub : Str) :
    ∃ r, ParseEnd key pub enc r ∧ ∀ s, exec (.tokParse key (pub ++ enc)) s = .next (s.respond r) := by
  cases hmodhex : isModhex enc with
  | false => exact ⟨_, .notModhex hmodhex, exec_tokParse_of_not_modhex henc hmodhex key pub⟩
  | true =>
    obtain ⟨ct, hblock⟩ := (exists_mhxBlock_iff henc).mpr hmodhex
    cases h : unpack (aesDec key ct) with
    | none => exact ⟨_, .checksum hblock h, exec_tokParse_of_unpack_none henc hblock h pub⟩
    | some f => exact ⟨_, .parsed hblock h, exec_tokParse_of_unpack_some henc hblock h pub⟩

/-- Characters that parse to given fields are the fields' ciphertext under the key, up to letter case
(42_token.md R149). -/
theorem mhxLower_of_unpack {key : Bytes16} {f : TokenFields} (hblock : mhxBlock enc = some ct)
    (h : unpack (aesDec key ct) = some f) : mhxLower enc = mhxEncode (aesEnc key (pack f)).val := by
  rw [unpack_eq_some_iff.mp h, aesEnc_aesDec, mhxEncode_of_mhxDecode (mhxBlock_eq_some_iff.mp hblock)]

theorem mhxLower_of_parseEnd {key : Bytes16} {pub : Str} {f : TokenFields} {r : Response} (h : ParseEnd key pub enc r)
    (hr : r.results = .parsed pub f) : mhxLower enc = mhxEncode (aesEnc key (pack f)).val := by
  cases h with
  | notModhex h => cases hr
  | checksum hblock h => cases hr
  | parsed hblock h =>
    cases hr
    exact mhxLower_of_unpack hblock h

end Parse

/-! ## The statements about OTPs -/

/-- Settles O26: the residual holds on a packed plaintext, the cipher and modhex invert, and the OTP is cut where it was
joined. -/
theorem tokenRoundTrip : Obligations.TokenRoundTrip := by
  intro P K f s
  let ct := aesEnc K (pack f)
  refine ⟨pack f, ct, P ++ mhxEncode ct.val, reply_tokPack_some .., reply_of_exec (exec_tokEncrypt ..),
    reply_of_exec (exec_tokFormat ..), ?_⟩
  have henc : (mhxEncode ct.val).length = 32 := mhxEncode_length_of_block ct
  have hblock : mhxBlock (mhxEncode ct.val) = some ct := mhxBlock_eq_some_iff.mpr (mhxDecode_mhxEncode ct.val)
  have hunpack : unpack (aesDec K ct) = some f := unpack_eq_some_iff.mpr (aesDec_aesEnc ..).symm
  exact exec_tokParse_of_unpack_some henc hblock hunpack P s

/-- Settles O27: the fields and the key determine the 32 characters up to letter case. -/
theorem tamperedOtpNeverKeepsItsFields : Obligations.TamperedOtpNeverKeepsItsFields := by
  intro K pub tail tail' f s hlen hlen' hne hparsed
  obtain ⟨r, hend, hexec⟩ := exists_parseEnd hlen K pub
  obtain ⟨r', hend', hexec'⟩ := exists_parseEnd hlen' K pub
  obtain ⟨-, hr⟩ : r.status = 0x0000 ∧ r.results = .parsed pub f := by
    simpa [reply_of_exec (hexec s)] using hparsed
  rw [reply_of_exec (hexec' s)]
  cases hend' with
  | notModhex h => exact .inl rfl
  | checksum hblock h => exact .inr (.inl rfl)
  | @parsed ct f' hblock h =>
    refine .inr (.inr ⟨f', ?_, rfl⟩)
    rintro rfl
    exact hne ((mhxLower_of_parseEnd hend hr).trans (mhxLower_of_unpack hblock h).symm)

/-- Settles O25: one clause for each way `TOK_PARSE` can end. -/
theorem tokParseChecksInOrder : Obligations.TokParseChecksInOrder := by
  intro key otp s
  refine ⟨encodeWord_of_decode (o := { aesKey := key, otp := otp }) rfl,
    fun hshort => exec_tokParse_of_short hshort key s, fun hlong hmodhex => ?_, fun hlong hmodhex => ?_⟩
  · obtain ⟨pub, enc, henc, rfl⟩ := exists_append_of_le_length hlong
    rw [drop_append_block pub henc] at hmodhex
    exact exec_tokParse_of_not_modhex henc hmodhex key pub s
  · obtain ⟨pub, enc, henc, rfl⟩ := exists_append_of_le_length hlong
    rw [drop_append_block pub henc] at hmodhex ⊢
    rw [take_append_block pub henc]
    obtain ⟨ct, hblock⟩ := (exists_mhxBlock_iff henc).mpr hmodhex
    refine ⟨ct, reply_of_exec (exec_mhxDec_of_mhxDecode (mhxBlock_eq_some_iff.mp hblock) s), fun hcrc => ?_,
      fun hcrc => ⟨fieldsOf (aesDec key ct), ?_, ?_⟩⟩
    · exact exec_tokParse_of_unpack_none henc hblock (unpack_of_crc16_ne hcrc) pub s
    · exact reply_of_exec (exec_tokUnpack_of_some (unpack_of_crc16_eq hcrc) s)
    · exact exec_tokParse_of_unpack_some henc hblock (unpack_of_crc16_eq hcrc) pub s

/-- Settles O23: the AES port is a permutation for every key. -/
theorem tokEncryptCallsTheAesPort : Obligations.TokEncryptCallsTheAesPort :=
  ⟨fun pt key s => ⟨encodeWord_of_decode (o := { plaintext := pt, aesKey := key }) rfl, exec_tokEncrypt pt key s⟩,
    fun key => ⟨(Config.aesPermutation key).bijective, aesDec_aesEnc key, aesEnc_aesDec key⟩⟩

/-- Settles O24: the tail is the modhex of the block. -/
theorem tokFormatComposesTheOtp : Obligations.TokFormatComposesTheOtp := fun pid ct s =>
  ⟨encodeWord_of_decode (o := { publicId := pid, ciphertext := ct }) rfl, mhxEncode ct.val, exec_tokFormat pid ct s,
    reply_of_exec (exec_mhxEnc ct.val s), mhxEncode_length_of_block ct⟩

/-! ## The statements about plaintexts -/

/-- The random field's only port call is the draw (42_token.md R141). -/
theorem randomFieldCalls_eq (random : Option (BitVec 16)) :
    randomFieldCalls random = if random.isSome then [] else [.randomBits 16] := by
  cases random <;> rfl

/-- Every 16-bit value is a possible draw (60_exceptions.md R211). -/
theorem randomBits16_toNat (a : PortAnswers) (v : BitVec 16) : randomBits16 { a with random := v.toNat } = v := by
  rw [randomBits16, Nat.mod_eq_of_lt v.isLt, BitVec.ofNat_toNat, BitVec.setWidth_eq]

set_option maxRecDepth 10000 in
/-- Settles O21: the answer is `pack` of the fields, whose bytes are the body's and the complemented CRC's. -/
theorem tokPackLaysOutThePlaintext : Obligations.TokPackLaysOutThePlaintext := by
  refine ⟨fun pid u t n random s => ⟨?_, ?_⟩, fun pid u t n v s => ⟨v.toNat, ?_⟩, fun s => ?_, fun s => ?_, fun s => ?_,
    fun s => ?_⟩
  · cases random with
    | none => exact encodeWord_of_decode (w := 0x0030) (o := encodeOperands (.tokPack pid u t n none)) rfl
    | some v => exact encodeWord_of_decode (w := 0x0230) (o := encodeOperands (.tokPack pid u t n (some v))) rfl
  · let f : TokenFields := ⟨pid, u, t, n, randomField random s.ports⟩
    let checksum := ~~~crc16 (packBody f)
    refine ⟨f.random, pack f, checksum.extractLsb' 0 8, checksum.extractLsb' 8 8, ?_, ?_, ?_, ?_⟩
    · rintro v rfl
      rfl
    · rw [← randomFieldCalls_eq]
      exact exec_tokPack pid u t n random s
    · exact packBody_append f (cksumField (packBody f))
    · rw [take_pack]
      exact fromLe_cksumField (packBody f)
  · rw [reply_of_exec (exec_tokPack ..), reply_tokPack_some, randomField, randomBits16_toNat]
  all_goals
    rw [reply_tokPack_some]
    decide

/-- Settles O22: the fields are slices of the plaintext. -/
theorem tokUnpackChecksThenReads : Obligations.TokUnpackChecksThenReads := by
  intro pt s
  refine ⟨encodeWord_of_decode (o := { plaintext := pt }) rfl,
    fun hcrc => exec_tokUnpack_of_none (unpack_of_crc16_ne hcrc) s,
    fun hcrc => ⟨fieldsOf pt, exec_tokUnpack_of_some (unpack_of_crc16_eq hcrc) s, rfl, ?_, ?_, ?_, ?_⟩⟩
  · exact (toNat_ofNat_fromLe_slice (n := 2) pt (by decide) rfl).trans (fromLe_slice_two pt (by decide))
  · refine (toNat_ofNat_fromLe_slice (n := 3) pt (by decide) rfl).trans ?_
    rw [fromLe_slice_eq_add (by decide) (by simp [pt.property]), fromLe_slice_two pt (by decide)]
    ring
  · exact (List.getD_eq_getElem ..).symm
  · exact (toNat_ofNat_fromLe_slice (n := 2) pt (by decide) rfl).trans (fromLe_slice_two pt (by decide))

/-! ## What a codec command's response depends on -/

/-- The response is the same in every state: a function of the operands alone. -/
def FixedResponse (i : Instr) : Prop := ∃ r : Response, ∀ s, exec i s = .next (s.respond r)

theorem fixedResponse_mhxDec (text : Str) : FixedResponse (.mhxDec text) := by
  obtain heven | hodd := Nat.mod_two_eq_zero_or_one text.length
  · by_cases hforeign : ∃ c ∈ text, mhxVal c = none
    · exact ⟨_, exec_mhxDec_of_foreignByte heven hforeign⟩
    · obtain ⟨data, hdec⟩ := (exists_mhxDecode_iff text).mpr ((isModhex_iff text).mpr ⟨heven, by simpa using hforeign⟩)
      exact ⟨_, exec_mhxDec_of_mhxDecode hdec⟩
  · exact ⟨_, exec_mhxDec_of_oddLength hodd⟩

theorem fixedResponse_tokUnpack (pt : Bytes16) : FixedResponse (.tokUnpack pt) := by
  cases h : unpack pt with
  | none => exact ⟨_, exec_tokUnpack_of_none h⟩
  | some f => exact ⟨_, exec_tokUnpack_of_some h⟩

theorem fixedResponse_tokParse (key : Bytes16) (otp : Str) : FixedResponse (.tokParse key otp) := by
  obtain hshort | hlong := Nat.lt_or_ge otp.length 32
  · exact ⟨_, exec_tokParse_of_short hshort key⟩
  · obtain ⟨pub, enc, henc, rfl⟩ := exists_append_of_le_length hlong
    obtain ⟨r, -, hexec⟩ := exists_parseEnd henc key pub
    exact ⟨r, hexec⟩

/-- Of the codec commands only `TOK_PACK` calls a port whose answer is free (42_token.md R147). -/
theorem fixedResponse_of_codec {i : Instr} (hi : codec i = true) (hpack : i.opcode ≠ .tokPack) : FixedResponse i := by
  cases i with
  | mhxEnc data => exact ⟨_, exec_mhxEnc data⟩
  | mhxDec text => exact fixedResponse_mhxDec text
  | mhxValid text => exact ⟨_, exec_mhxValid text⟩
  | crc16 data => exact ⟨_, exec_crc16 data⟩
  | crcVerify data => exact ⟨_, exec_crcVerify data⟩
  | crcField data => exact ⟨_, exec_crcField data⟩
  | tokPack pid u t n random => exact absurd rfl hpack
  | tokUnpack pt => exact fixedResponse_tokUnpack pt
  | tokEncrypt pt key => exact ⟨_, exec_tokEncrypt pt key⟩
  | tokFormat pid ct => exact ⟨_, exec_tokFormat pid ct⟩
  | tokParse key otp => exact fixedResponse_tokParse key otp
  | devCreate pid i6 k u ts n => cases hi
  | devGenerate random => cases hi
  | devSave => cases hi

/-- Settles O28: every response but `TOK_PACK`'s is fixed, and that one reads the ports for its random field only. -/
theorem codecCommandsTouchNoDeviceRegister : Obligations.CodecCommandsTouchNoDeviceRegister := by
  intro i hi
  by_cases hpack : i.opcode = .tokPack
  · cases i with
    | tokPack pid u t n random =>
      exact ⟨fun ports => ⟨0x0000, .plaintext (pack ⟨pid, u, t, n, randomField random ports⟩), randomFieldCalls random⟩,
        exec_tokPack pid u t n random⟩
    | _ => cases hpack
  · obtain ⟨r, hr⟩ := fixedResponse_of_codec hi hpack
    exact ⟨fun _ => r, hr⟩

end Sys2Proof.Machine

/-! PROOFS, 43_device.md: the live timestamp and the seed, what each device command does in each state, and what a
session of generations emits and leaves behind. -/

namespace Sys2Proof.Machine

/-! ## The live timestamp and the seed -/

/-- Settles O32: `liveTs` is the 24-bit truncation of an integer. -/
theorem liveTimestampWraps : Obligations.LiveTimestampWraps := by
  have hvalue (seed : BitVec 24) (E : Int) :
      ((liveTs seed E).toNat : Int) = ((seed.toNat : Int) + E) % (2 ^ 24 : Int) := by
    rw [liveTs, BitVec.toNat_ofInt, Int.toNat_of_nonneg (Int.emod_nonneg _ (by decide))]
    rfl
  refine ⟨hvalue, fun seed E => BitVec.eq_of_toNat_eq (Int.ofNat.inj ?_)⟩
  simp only [Int.ofNat_eq_natCast, hvalue]
  omega

/-- With a margin the drawn value fits the register (43_device.md R172). -/
theorem seedOf_none_toNat {p : Config.Params} (h : 1 ≤ p.tsMargin) (a : PortAnswers) :
    (seedOf p none a).toNat = randomRange 0 (seedMax p) a := by
  have hle := randomRange_le (Nat.zero_le (seedMax p)) a
  refine Nat.mod_eq_of_lt (lt_of_le_of_lt hle ?_)
  rw [seedMax]
  omega

/-- Every value of its range is a possible answer of the random port (60_exceptions.md R211). -/
theorem randomRange_zero_of_le {hi v : Nat} (h : v ≤ hi) (a : PortAnswers) :
    randomRange 0 hi { a with random := v } = v := by
  rw [randomRange, Nat.zero_add]
  exact Nat.mod_eq_of_lt (Nat.lt_succ_of_le h)

/-- Settles O31: the draw is any value up to `seedMax`, and from `2^24 - 2^20` on `2^20 - 1` ticks stay below `2^24`. -/
theorem seedDrawLeavesTheMargin : Obligations.SeedDrawLeavesTheMargin := by
  have hmax {p : Config.Params} (a : PortAnswers) (hone : 1 ≤ p.tsMargin) :
      (seedOf p none a).toNat ≤ 2 ^ 24 - p.tsMargin :=
    seedOf_none_toNat hone a ▸ randomRange_le (Nat.zero_le _) a
  refine ⟨fun p a hone _ => hmax a hone, fun p a v hone _ hv => ⟨v, ?_⟩, fun p a elapsed hp helapsed => ?_⟩
  · exact (seedOf_none_toNat hone _).trans (randomRange_zero_of_le hv a)
  · have hseed := hmax (p := p) a (by omega)
    obtain ⟨hlive, -⟩ := liveTimestampWraps
    have hlive := hlive (seedOf p none a) elapsed
    omega

/-! ## DEV_CREATE -/

theorem seedCalls_eq (p : Config.Params) (ts : Option (BitVec 32)) :
    seedCalls p ts = if ts.isSome then [] else [.randomRange 0 (2 ^ 24 - p.tsMargin)] := by
  cases ts <;> rfl

section Create

variable {p : Config.Params} {publicId : Str} {privateId aesKey : Bytes} {u : BitVec 32} {ts : Option (BitVec 32)}
  {n : BitVec 32} {pid : Bytes6} {key : Bytes16}

theorem publicIdTooLong_eq_false_iff :
    publicIdTooLong p publicId = false ↔ ∀ limit, p.pidMaxChars = some limit → publicId.length ≤ limit := by
  cases h : p.pidMaxChars <;> simp [publicIdTooLong, h]

theorem exec_devCreate_of_error {s : State} {e : CommandError}
    (h : validateCreate s.params publicId privateId aesKey u ts n = .error e) :
    exec (.devCreate publicId privateId aesKey u ts n) s = .next (s.respond ⟨errorStatus e, .empty, []⟩) := by
  simp [exec, execDevCreate, h]

theorem extractLsb'_toNat_of_lt {w len : Nat} {v : BitVec w} (h : v.toNat < 2 ^ len) :
    (v.extractLsb' 0 len).toNat = v.toNat := by
  simpa using Nat.mod_eq_of_lt h

theorem createdRegs_usageCounter_toNat (hu : u.toNat ≤ 0x7FFF) (a : PortAnswers) :
    (createdRegs p publicId pid key u ts n a).usageCounter.toNat = u.toNat :=
  extractLsb'_toNat_of_lt (by omega)

/-- The session counter keeps an 8-bit operand (43_device.md R170). -/
theorem zeroExtend_extractLsb'_of_le (hn : n.toNat ≤ 0xFF) :
    (n.extractLsb' 0 8).zeroExtend 9 = BitVec.ofNat 9 n.toNat := by
  refine BitVec.eq_of_toNat_eq ?_
  rw [BitVec.zeroExtend, BitVec.toNat_setWidth_of_le (by decide), extractLsb'_toNat_of_lt (by omega),
    BitVec.toNat_ofNat, Nat.mod_eq_of_lt (by omega)]

/-- The registers of a creation that passed its checks hold the operands (43_device.md R170). -/
theorem createdRegs_eq (hn : n.toNat ≤ 0xFF) (a : PortAnswers) :
    createdRegs p publicId pid key u ts n a = {
      publicId := publicId, privateId := pid, aesKey := key
      usageCounter := BitVec.ofNat 16 u.toNat
      tsSeed := seedOf p ts a
      sessionCounter := BitVec.ofNat 9 n.toNat
      generated := false
      poweron := a.now } := by
  rw [createdRegs, zeroExtend_extractLsb'_of_le hn]
  rfl

theorem createdRegs_sessionCounter_toNat (hn : n.toNat ≤ 0xFF) (a : PortAnswers) :
    (createdRegs p publicId pid key u ts n a).sessionCounter.toNat = n.toNat := by
  rw [createdRegs_eq hn]
  exact Nat.mod_eq_of_lt (by omega)

/-- Everything `DEV_CREATE` can do (43_device.md R170). -/
theorem devCreate_next {s t : State} (h : exec (.devCreate publicId privateId aesKey u ts n) s = .next t) :
    (∃ e, validateCreate s.params publicId privateId aesKey u ts n = .error e ∧
        t = s.respond ⟨errorStatus e, .empty, []⟩) ∨
      ∃ pid key, validateCreate s.params publicId privateId aesKey u ts n = .ok (pid, key) ∧
        t = ((s.withRegs (createdRegs s.params publicId pid key u ts n s.ports)).withFsm .created).respond
          ⟨0x0000, .empty, seedCalls s.params ts ++ [.clockNow]⟩ := by
  rcases hv : validateCreate s.params publicId privateId aesKey u ts n with e | ⟨pid, key⟩
  · exact .inl ⟨e, rfl, Host.Outcome.next.inj (h.symm.trans (exec_devCreate_of_error hv))⟩
  · exact .inr ⟨pid, key, rfl, Host.Outcome.next.inj (h.symm.trans (exec_devCreate_of_valid hv))⟩

/-- A creation that reports success passed its checks and starts a session with the registers it wrote. -/
theorem created_of_devCreate {s t : State} (h : exec (.devCreate publicId privateId aesKey u ts n) s = .next t)
    (hok : t.status = 0x0000) : ∃ pid key,
      validateCreate s.params publicId privateId aesKey u ts n = .ok (pid, key) ∧ t.fsmState = .created ∧
        t.dev = some (createdRegs s.params publicId pid key u ts n s.ports) ∧ t.params = s.params := by
  obtain ⟨e, -, rfl⟩ | ⟨pid, key, hv, rfl⟩ := devCreate_next h
  · exact absurd hok (errorStatus_ne_zero e)
  · exact ⟨pid, key, hv, rfl, rfl, rfl⟩

/-! ### The first failing check -/

/-- The eight checks of 43_device.md R171 in their order: whether each fails, and the status it then reports. -/
def createChecks (p : Config.Params) (publicId : Str) (privateId aesKey : Bytes) (u : BitVec 32)
    (ts : Option (BitVec 32)) (n : BitVec 32) : List (Bool × BitVec 16) :=
  [(oddLength publicId, errorStatus (.validation .publicId .oddLength)),
   (publicId.any fun c => mhxVal c == none, errorStatus (.validation .publicId .alphabet)),
   (publicIdTooLong p publicId, errorStatus (.validation .publicId .length)),
   (privateId.length != 6, errorStatus (.validation .privateId .length)),
   (aesKey.length != 16, errorStatus (.validation .aesKey .length)),
   (decide (0x7FFF < u.toNat), errorStatus (.validation .usageCounter .range)),
   (ts.any fun t => decide (0xFFFFFF < t.toNat), errorStatus (.validation .timestamp .range)),
   (decide (0xFF < n.toNat), errorStatus (.validation .sessionCounter .range))]

/-- The status of the first failing check, 0x0000 if none fails. -/
def firstFailure (checks : List (Bool × BitVec 16)) : BitVec 16 := ((checks.find? (·.1)).map (·.2)).getD 0x0000

@[simp] theorem firstFailure_nil : firstFailure [] = 0x0000 := rfl

@[simp] theorem firstFailure_cons (failed : Bool) (status : BitVec 16) (checks : List (Bool × BitVec 16)) :
    firstFailure ((failed, status) :: checks) = if failed then status else firstFailure checks := by
  cases failed <;> rfl

/-- The status that the outcome of the checks gives `DEV_CREATE`. -/
def checkStatus {α : Type} : Except CommandError α → BitVec 16
  | .error e => errorStatus e
  | .ok _ => 0x0000

@[simp] theorem checkStatus_error {α : Type} (e : CommandError) :
    checkStatus (.error e : Except CommandError α) = errorStatus e := rfl

@[simp] theorem checkStatus_ok {α : Type} (v : α) : checkStatus (.ok v) = 0x0000 := rfl

@[simp] theorem checkStatus_ite {α : Type} {c : Prop} [Decidable c] (e : CommandError) (x : Except CommandError α) :
    checkStatus (if c then .error e else x) = if c then errorStatus e else checkStatus x := by
  split <;> rfl

/-- `validate_create` goes through the checks in order; the two length checks are where a byte string does not take its
fixed width (43_device.md R171). -/
theorem checkStatus_validateCreate : checkStatus (validateCreate p publicId privateId aesKey u ts n) =
    firstFailure (createChecks p publicId privateId aesKey u ts n) := by
  cases h6 : asBytesN 6 privateId with
  | none =>
    have hlen := asBytesN_eq_none.mp h6
    simp [validateCreate, createChecks, hasForeignByte, h6, hlen]
  | some pid =>
    obtain rfl := asBytesN_eq_some.mp h6
    cases h16 : asBytesN 16 aesKey with
    | none =>
      have hlen := asBytesN_eq_none.mp h16
      simp [validateCreate, createChecks, hasForeignByte, h16, pid.property, hlen]
    | some key =>
      obtain rfl := asBytesN_eq_some.mp h16
      simp [validateCreate, createChecks, hasForeignByte, pid.property, key.property]

theorem status_of_devCreate {s t : State} (h : exec (.devCreate publicId privateId aesKey u ts n) s = .next t) :
    t.status = checkStatus (validateCreate s.params publicId privateId aesKey u ts n) := by
  obtain ⟨e, hv, rfl⟩ | ⟨pid, key, hv, rfl⟩ := devCreate_next h <;> rw [hv] <;> rfl

end Create

/-- Settles O30: the status is that of the checks, which go in order. -/
theorem devCreateReportsTheFirstFailure : Obligations.DevCreateReportsTheFirstFailure := by
  intro pid i6 key u ts n s
  obtain ⟨t, ht, -⟩ := exec_hasEffect (.devCreate pid i6 key u ts n) s
  exact ⟨t, ht, (status_of_devCreate ht).trans checkStatus_validateCreate⟩

/-- Settles O29: operands that pass the checks are written as they are, each of them within its register. -/
theorem devCreateWritesEveryRegister : Obligations.DevCreateWritesEveryRegister := by
  refine ⟨fun pid i6 key u ts n s heven hval hlimit hu hts hn => ?_,
    fun pid i6 key u ts n => ⟨?_, fun s t ht hne => ?_⟩⟩
  · have hvalid : validateCreate s.params pid i6.val key.val u ts n = .ok (i6, key) :=
      validateCreate_ok_iff.mpr ⟨(isModhex_iff pid).mpr ⟨heven, hval⟩, publicIdTooLong_eq_false_iff.mpr hlimit, hu, hts,
        hn, rfl, rfl⟩
    refine ⟨seedOf s.params ts s.ports, ?_, ?_, ?_⟩
    · rintro t rfl
      exact extractLsb'_toNat_of_lt (Nat.lt_succ_of_le (hts t rfl))
    · rintro rfl
      rfl
    · rw [exec_devCreate_of_valid hvalid, seedCalls_eq, createdRegs_eq hn]
      rfl
  · cases ts with
    | none => exact encodeWord_of_decode (w := 0x0040) (o := encodeOperands (.devCreate pid i6 key u none n)) rfl
    | some t => exact encodeWord_of_decode (w := 0x0140) (o := encodeOperands (.devCreate pid i6 key u (some t) n)) rfl
  · obtain ⟨e, -, rfl⟩ | ⟨pid6, key16, -, rfl⟩ := devCreate_next ht
    · rfl
    · exact absurd rfl hne

/-! ## DEV_GENERATE -/

/-- The registers after a `DEV_GENERATE` in `CREATED`: past the session ceiling they stay (43_device.md R173). -/
def generateRegs (r : DeviceRegs) : DeviceRegs := if 0xFF < r.sessionCounter.toNat then r else afterGenerate r

/-- The plaintext that a generation encrypts (43_device.md R173). -/
def generatePlaintext (r : DeviceRegs) (g : Generation) : Bytes16 := pack (generateFields r g.1 g.2)

/-- The response to a `DEV_GENERATE` in `CREATED`: an OTP, or OverflowError past the session ceiling
(43_device.md R173). -/
def generateResponse (r : DeviceRegs) (g : Generation) : Response :=
  if 0xFF < r.sessionCounter.toNat then ⟨0x0003, .empty, []⟩
  else ⟨0x0000, .otp (formatOtp r.publicId (aesEnc r.aesKey (generatePlaintext r g))),
    [.clockElapsed8 r.poweron] ++ randomFieldCalls g.1 ++ [.aesEnc r.aesKey (generatePlaintext r g)]⟩

section Generate

variable {s : State} {r : DeviceRegs}

theorem generateRegs_of_le (h : r.sessionCounter.toNat ≤ 0xFF) : generateRegs r = afterGenerate r :=
  if_neg (Nat.not_lt_of_le h)

theorem generateRegs_of_gt (h : 0xFF < r.sessionCounter.toNat) : generateRegs r = r := if_pos h

theorem generateResponse_of_le (h : r.sessionCounter.toNat ≤ 0xFF) (g : Generation) : generateResponse r g =
    ⟨0x0000, .otp (formatOtp r.publicId (aesEnc r.aesKey (generatePlaintext r g))),
      [.clockElapsed8 r.poweron] ++ randomFieldCalls g.1 ++ [.aesEnc r.aesKey (generatePlaintext r g)]⟩ :=
  if_neg (Nat.not_lt_of_le h)

theorem generateResponse_of_gt (h : 0xFF < r.sessionCounter.toNat) (g : Generation) :
    generateResponse r g = ⟨0x0003, .empty, []⟩ := if_pos h

/-- Writing the registers that are there changes nothing. -/
theorem withRegs_of_dev (hd : s.dev = some r) : s.withRegs r = s := by
  rw [State.withRegs, ← hd]

theorem exec_devGenerate_created (hf : s.fsmState = .created) (hd : s.dev = some r) (random : Option (BitVec 16)) :
    exec (.devGenerate random) s =
      .next ((s.withRegs (generateRegs r)).respond (generateResponse r (random, s.ports))) := by
  obtain hgt | hle := Nat.lt_or_ge 0xFF r.sessionCounter.toNat
  · rw [exec_devGenerate_overflow hf hd hgt, generateRegs_of_gt hgt, generateResponse_of_gt hgt, withRegs_of_dev hd]
  · rw [generateRegs_of_le hle, generateResponse_of_le hle]
    simp [exec, execDevGenerate, withInstance_created hf hd, Nat.not_lt_of_le hle, generatePlaintext]

theorem exec_devGenerate_stateError (hf : s.fsmState ≠ .created) (random : Option (BitVec 16)) :
    exec (.devGenerate random) s = .next (s.respond ⟨0x0004, .empty, []⟩) :=
  withInstance_stateError (.inl hf) _

/-- The 9-bit register counts up from the value it holds (10_state.md R17). -/
theorem afterGenerate_eq (r : DeviceRegs) : afterGenerate r =
    { r with sessionCounter := BitVec.ofNat 9 (r.sessionCounter.toNat + 1), generated := true } := rfl

end Generate

/-- Settles O33: the plaintext is the packing of `generateFields`, whose timestamp is the live one. -/
theorem devGenerateEmitsOneOtpOrFails : Obligations.DevGenerateEmitsOneOtpOrFails := by
  refine ⟨fun random s r hf hd hle => ?_, fun random s hf => exec_devGenerate_stateError hf random,
    fun random s r hf hd hgt => exec_devGenerate_overflow hf hd hgt random, fun random => ?_⟩
  · obtain ⟨hlive, -⟩ := liveTimestampWraps
    refine ⟨liveTs r.tsSeed s.ports.elapsed8, generatePlaintext r (random, s.ports), _, hlive .., ?_,
      reply_of_exec (exec_mhxEnc ..), ?_⟩
    · exact reply_of_exec (exec_tokPack ..)
    · rw [exec_devGenerate_created hf hd, generateRegs_of_le hle, generateResponse_of_le hle, randomFieldCalls_eq,
        afterGenerate_eq]
      rfl
  · cases random with
    | none => exact encodeWord_of_decode (w := 0x0041) (o := encodeOperands (.devGenerate none)) rfl
    | some v => exact encodeWord_of_decode (w := 0x0241) (o := encodeOperands (.devGenerate (some v))) rfl

/-! ## DEV_SAVE -/

section Save

variable {s : State} {r : DeviceRegs}

theorem exec_devSave_created (hf : s.fsmState = .created) (hd : s.dev = some r) :
    exec .devSave s = .next ((s.withFsm .persisted).respond ⟨0x0000, .record (saveRecord s.params r), []⟩) := by
  simp [exec, execDevSave, withInstance_created hf hd]

theorem exec_devSave_stateError (hf : s.fsmState ≠ .created) :
    exec .devSave s = .next (s.respond ⟨0x0004, .empty, []⟩) :=
  withInstance_stateError (.inl hf) _

end Save

/-- Settles O35: the record's counter is the register plus the bump of the rule that holds. -/
theorem devSaveEmitsTheRecordOrFails : Obligations.DevSaveEmitsTheRecordOrFails := by
  refine ⟨encodeWord_of_decode (o := {}) rfl, fun s hf => exec_devSave_stateError hf, fun s r hf hd =>
    ⟨r.usageCounter + saveBump s.params.saveBumpRule r, exec_devSave_created hf hd, ?_, ?_, ?_, ?_⟩⟩ <;>
  · intro hrule hr
    simp [saveBump, hrule, hr]

/-! ## The transition table -/

/-- Outside `UNINIT` the registers hold a value (10_state.md R24). -/
theorem State.Inv.exists_regs {s : State} (h : s.Inv) (hf : s.fsmState ≠ .uninit) : ∃ r, s.dev = some r :=
  Option.ne_none_iff_exists'.mp fun hd => hf (h.absent.mp hd)

/-- The rows of `DEV_GENERATE`. -/
theorem devGenerate_row {s t : State} (hs : s.Inv) {random : Option (BitVec 16)}
    (h : exec (.devGenerate random) s = .next t) :
    (s.fsmState ≠ .created ∧ t.status = 0x0004 ∧ t.fsmState = s.fsmState ∧ t.dev = s.dev) ∨
      (s.fsmState = .created ∧ ∃ r, s.dev = some r ∧
        ((r.sessionCounter.toNat ≤ 0xFF ∧ t.status = 0x0000 ∧ t.fsmState = .created ∧
            t.dev = some (afterGenerate r)) ∨
          (r.sessionCounter.toNat = 0x100 ∧ t.status = 0x0003 ∧ t.fsmState = .created ∧ t.dev = s.dev))) := by
  by_cases hf : s.fsmState = .created
  · obtain ⟨r, hd⟩ := hs.exists_regs (by simp [hf])
    obtain rfl := Host.Outcome.next.inj ((exec_devGenerate_created hf hd random).symm.trans h)
    refine .inr ⟨hf, r, hd, ?_⟩
    obtain hgt | hle := Nat.lt_or_ge 0xFF r.sessionCounter.toNat
    · have hceiling := (hs.regs r hd).sessionCounter
      exact .inr ⟨by omega, by simp [generateResponse_of_gt hgt], hf, by simp [generateRegs_of_gt hgt, hd]⟩
    · exact .inl ⟨hle, by simp [generateResponse_of_le hle], hf, by simp [generateRegs_of_le hle]⟩
  · obtain rfl := Host.Outcome.next.inj ((exec_devGenerate_stateError hf random).symm.trans h)
    exact .inl ⟨hf, rfl, rfl, rfl⟩

/-- The rows of `DEV_SAVE`. -/
theorem devSave_row {s t : State} (hs : s.Inv) (h : exec .devSave s = .next t) :
    (s.fsmState ≠ .created ∧ t.status = 0x0004 ∧ t.fsmState = s.fsmState ∧ t.dev = s.dev) ∨
      (s.fsmState = .created ∧ t.status = 0x0000 ∧ t.fsmState = .persisted ∧ t.dev = s.dev) := by
  by_cases hf : s.fsmState = .created
  · obtain ⟨r, hd⟩ := hs.exists_regs (by simp [hf])
    obtain rfl := Host.Outcome.next.inj ((exec_devSave_created hf hd).symm.trans h)
    exact .inr ⟨hf, rfl, rfl, rfl⟩
  · obtain rfl := Host.Outcome.next.inj ((exec_devSave_stateError hf).symm.trans h)
    exact .inl ⟨hf, rfl, rfl, rfl⟩

/-- The row of the codec commands. -/
theorem codec_row {s t : State} {i : Instr} (hi : codec i = true) (h : exec i s = .next t) :
    codec i = true ∧ t.fsmState = s.fsmState ∧ t.dev = s.dev := by
  obtain ⟨response, hresponse⟩ := codecCommandsTouchNoDeviceRegister i hi
  obtain rfl := Host.Outcome.next.inj ((hresponse s).symm.trans h)
  exact ⟨hi, rfl, rfl⟩

/-- Settles O37: the step runs the word's command, which has its own row. -/
theorem transitionTable : Obligations.TransitionTable := by
  intro s tr rest hs hp hcarried
  obtain ⟨t, ht, -⟩ := runTransaction_answers (s := s.accept tr rest) hcarried
  refine ⟨t, (step_of_command hp).trans ht, ?_⟩
  have hs' := hs.accept tr rest
  obtain ⟨-, ⟨e, hdecode, rfl⟩ | ⟨i, hdecode, hexec⟩⟩ := runTransaction_next ht
  · rw [hdecode]
    exact ⟨rfl, rfl, rfl⟩
  · rw [hdecode]
    cases i with
    | devCreate pid i6 key u ts n =>
      obtain ⟨e, hv, rfl⟩ | ⟨pid6, key16, hv, rfl⟩ := devCreate_next hexec
      · exact .inr ⟨e, hv, rfl, rfl, rfl⟩
      · exact .inl ⟨rfl, rfl, pid6, key16, hv, rfl⟩
    | devGenerate random => exact devGenerate_row (s := s.accept tr rest) hs' hexec
    | devSave => exact devSave_row (s := s.accept tr rest) hs' hexec
    | _ => exact codec_row (s := s.accept tr rest) rfl hexec

/-! ## The registers along a session -/

section Session

variable {r : DeviceRegs}

/-- A session of `k` generations moves two registers: the session counter, up to its ceiling 0x100, and `generated`
(43_device.md R177, R178). -/
theorem generateRegs_iterate (h : r.sessionCounter.toNat ≤ 0xFF) (k : Nat) : generateRegs^[k] r =
    { r with
      sessionCounter := BitVec.ofNat 9 (min (r.sessionCounter.toNat + k) 0x100)
      generated := r.generated || decide (0 < k) } := by
  induction k with
  | zero => simp [show r.sessionCounter.toNat ≤ 256 by omega]
  | succ k ih =>
    rw [Function.iterate_succ_apply', ih]
    have hcounter : (BitVec.ofNat 9 (min (r.sessionCounter.toNat + k) 0x100)).toNat =
        min (r.sessionCounter.toNat + k) 0x100 := Nat.mod_eq_of_lt (by omega)
    obtain hgt | hle := Nat.lt_or_ge 0xFF (r.sessionCounter.toNat + k)
    · have hstay : min (r.sessionCounter.toNat + (k + 1)) 0x100 = min (r.sessionCounter.toNat + k) 0x100 := by omega
      have hflag : 0 < k := by omega
      rw [generateRegs_of_gt (by simp only [hcounter]; omega), hstay]
      simp [hflag]
    · have hnext : min (r.sessionCounter.toNat + (k + 1)) 0x100 = min (r.sessionCounter.toNat + k) 0x100 + 1 := by omega
      rw [generateRegs_of_le (by simp only [hcounter]; omega), afterGenerate_eq, hnext]
      simp [hcounter]

theorem generateRegs_iterate_frame (h : r.sessionCounter.toNat ≤ 0xFF) (k : Nat) :
    (generateRegs^[k] r).publicId = r.publicId ∧ (generateRegs^[k] r).aesKey = r.aesKey ∧
      (generateRegs^[k] r).usageCounter = r.usageCounter := by
  rw [generateRegs_iterate h]
  exact ⟨rfl, rfl, rfl⟩

theorem sessionCounter_generateRegs_iterate (h : r.sessionCounter.toNat ≤ 0xFF) (k : Nat) :
    (generateRegs^[k] r).sessionCounter.toNat = min (r.sessionCounter.toNat + k) 0x100 := by
  rw [generateRegs_iterate h]
  exact Nat.mod_eq_of_lt (by omega)

/-- Once a session has generated, either rule bumps (43_device.md R176). -/
theorem saveBump_generateRegs_iterate (h : r.sessionCounter.toNat ≤ 0xFF) {k : Nat} (hk : 0 < k)
    (rule : Config.SaveBumpRule) : saveBump rule (generateRegs^[k] r) = 1 := by
  cases rule with
  | flag => simp [saveBump, generateRegs_iterate h, hk]
  | counterGtZero =>
    have hpos : 0 < (generateRegs^[k] r).sessionCounter.toNat := by
      rw [sessionCounter_generateRegs_iterate h]
      omega
    exact if_pos hpos

end Session

/-! ## Runs of generations -/

/-- The responses to consecutive generations, first to last. -/
def generateResponses (r : DeviceRegs) (gs : List Generation) : List Response :=
  gs.mapIdx fun j g => generateResponse (generateRegs^[j] r) g

theorem generateResponses_cons (r : DeviceRegs) (g : Generation) (gs : List Generation) :
    generateResponses r (g :: gs) = generateResponse r g :: generateResponses (generateRegs r) gs :=
  List.mapIdx_cons

/-- What consecutive generations make of a state in `CREATED` with the registers `r`. -/
structure Generated (s : State) (r : DeviceRegs) (gs : List Generation) (t : State) : Prop where
  /-- The session goes on. -/
  fsmState : t.fsmState = .created
  /-- The registers have moved once a generation. -/
  dev : t.dev = some (generateRegs^[gs.length] r)
  /-- The parameters stay. -/
  params : t.params = s.params
  /-- Each generation has answered. -/
  responses : t.responses = (generateResponses r gs).reverse ++ s.responses

theorem Generated.nil {s : State} {r : DeviceRegs} (hf : s.fsmState = .created) (hd : s.dev = some r) :
    Generated s r [] s :=
  ⟨hf, hd, rfl, rfl⟩

theorem Generated.cons {s s' t : State} {r : DeviceRegs} {g : Generation} {gs : List Generation}
    (h : Generated s' (generateRegs r) gs t) (hparams : s'.params = s.params)
    (hresponses : s'.responses = generateResponse r g :: s.responses) : Generated s r (g :: gs) t where
  fsmState := h.fsmState
  dev := h.dev
  params := h.params.trans hparams
  responses := by simp [h.responses, hresponses, generateResponses_cons]

theorem core_run_succ {s s' : State} (h : step s = .next s') (k : Nat) :
    Sys2Proof.core.run (k + 1) s = Sys2Proof.core.run k s' := by
  have hcore : Sys2Proof.core.step s = .next s' := h
  simp only [Host.Core.run, hcore]

/-- The state after a generation in `CREATED` with the registers `r`. -/
def State.afterGeneration (s : State) (r : DeviceRegs) (g : Generation) : State :=
  (({ s with ports := g.2 } : State).withRegs (generateRegs r)).respond (generateResponse r g)

theorem exec_generation {s : State} {r : DeviceRegs} (hf : s.fsmState = .created) (hd : s.dev = some r)
    (g : Generation) : exec (.devGenerate g.1) { s with ports := g.2 } = .next (s.afterGeneration r g) :=
  exec_devGenerate_created (s := { s with ports := g.2 }) hf hd g.1

theorem step_generateEvent {s : State} {r : DeviceRegs} {g : Generation} {rest : List HostEvent}
    (hf : s.fsmState = .created) (hd : s.dev = some r) (hp : s.pending = generateEvent g :: rest) :
    step s = .next ((s.dequeue rest).afterGeneration r g) := by
  have hcarried : carriable s.params (encodeOperands (.devGenerate g.1)) = true :=
    Laws.Carriable.devGenerate g.1 s.params
  exact (stepRunsTheDecodedCommand s _ rest _ hp hcarried (decode_encode _)).trans
    (exec_generation (s := s.dequeue rest) hf hd g)

/-- The block runs consecutive generations, one step each. -/
theorem run_generations {s : State} {r : DeviceRegs} {gs : List Generation} {rest : List HostEvent}
    (hf : s.fsmState = .created) (hd : s.dev = some r) (hp : s.pending = gs.map generateEvent ++ rest) :
    ∃ t, Sys2Proof.core.run gs.length s = .next t ∧ Generated s r gs t ∧ t.pending = rest := by
  induction gs generalizing s r with
  | nil => exact ⟨s, rfl, .nil hf hd, hp⟩
  | cons g gs ih =>
    obtain ⟨t, hrun, hgenerated, hrest⟩ :=
      ih (s := (s.dequeue (gs.map generateEvent ++ rest)).afterGeneration r g) hf rfl rfl
    exact ⟨t, (core_run_succ (step_generateEvent hf hd hp) _).trans hrun, hgenerated.cons rfl rfl, hrest⟩

/-! ## A session from its creation -/

/-- The host issues a session's generations right after its creation: they all answer. -/
theorem run_session {pid : Str} {i6 k : Bytes} {u : BitVec 32} {ts : Option (BitVec 32)} {n : BitVec 32} {s₀ s : State}
    (h : exec (.devCreate pid i6 k u ts n) s₀ = .next s) (hok : s.status = 0x0000) (gs : List Generation)
    (rest : List HostEvent) : ∃ (r : DeviceRegs) (t : State),
      (r.publicId = pid ∧ r.aesKey.val = k ∧ r.usageCounter.toNat = u.toNat ∧ r.generated = false) ∧
      (r.sessionCounter.toNat = n.toNat ∧ n.toNat ≤ 0xFF) ∧
      Sys2Proof.core.run gs.length { s with pending := gs.map generateEvent ++ rest } = .next t ∧
      Generated s r gs t ∧ t.pending = rest := by
  obtain ⟨pid6, key, hv, hf, hd, -⟩ := created_of_devCreate h hok
  obtain ⟨-, -, hu, -, hn, -, hkey⟩ := validateCreate_ok_iff.mp hv
  obtain ⟨t, hrun, hgenerated, hrest⟩ :=
    run_generations (s := { s with pending := gs.map generateEvent ++ rest }) hf hd rfl
  exact ⟨_, t, ⟨rfl, hkey, createdRegs_usageCounter_toNat hu _, rfl⟩, ⟨createdRegs_sessionCounter_toNat hn _, hn⟩, hrun,
    ⟨hgenerated.fsmState, hgenerated.dev, hgenerated.params, hgenerated.responses⟩, hrest⟩

/-- The OTP of a plaintext parses back under its key, in every state (42_token.md R148). -/
theorem reply_tokParse_formatOtp (key : Bytes16) (pid : Str) (f : TokenFields) (v : State) :
    reply (.tokParse key (formatOtp pid (aesEnc key (pack f)))) v = some (0x0000, .parsed pid f) := by
  have hblock : mhxBlock (mhxEncode (aesEnc key (pack f)).val) = some (aesEnc key (pack f)) :=
    mhxBlock_eq_some_iff.mpr (mhxDecode_mhxEncode _)
  have hunpack : unpack (aesDec key (aesEnc key (pack f))) = some f := unpack_eq_some_iff.mpr (aesDec_aesEnc ..).symm
  exact reply_of_exec (exec_tokParse_of_unpack_some (mhxEncode_length_of_block _) hblock hunpack pid v)

theorem generateFields_sessionCounter_toNat {r : DeviceRegs} (h : r.sessionCounter.toNat ≤ 0xFF) (g : Generation) :
    (generateFields r g.1 g.2).sessionCounter.toNat = r.sessionCounter.toNat :=
  extractLsb'_toNat_of_lt (Nat.lt_succ_of_le h)

theorem generateResponses_length (r : DeviceRegs) (gs : List Generation) :
    (generateResponses r gs).length = gs.length := List.length_mapIdx

theorem generateResponses_getElem? {r : DeviceRegs} {gs : List Generation} {j : Nat} {response : Response}
    (h : (generateResponses r gs)[j]? = some response) :
    ∃ g, gs[j]? = some g ∧ response = generateResponse (generateRegs^[j] r) g := by
  rw [generateResponses, List.getElem?_mapIdx, Option.map_eq_some_iff] at h
  obtain ⟨g, hg, rfl⟩ := h
  exact ⟨g, hg, rfl⟩

/-- Below the ceiling a session has room for the generation after `j` others. -/
theorem sessionCounter_of_room {r : DeviceRegs} {j : Nat} (h : r.sessionCounter.toNat + j ≤ 0xFF) :
    (generateRegs^[j] r).sessionCounter.toNat = r.sessionCounter.toNat + j := by
  rw [sessionCounter_generateRegs_iterate (by omega)]
  omega

/-- Settles O50: the `j`-th OTP packs the registers after `j` generations, whose counter has gone up by `j`. -/
theorem sessionFieldsCountUp : Obligations.SessionFieldsCountUp := by
  intro pid i6 k u ts n s₀ s gs rest hexec hok hroom
  obtain ⟨r, t, ⟨rfl, hkey, husage, -⟩, ⟨hsession, hn⟩, hrun, hgenerated, -⟩ := run_session hexec hok gs rest
  refine ⟨t, r.aesKey, generateResponses r gs, hkey, hrun, hgenerated.responses, generateResponses_length r gs,
    fun j response hj => ?_⟩
  obtain ⟨g, hg, rfl⟩ := generateResponses_getElem? hj
  obtain ⟨hlt, -⟩ := List.getElem?_eq_some_iff.mp hg
  have hcounter := sessionCounter_of_room (r := r) (j := j) (by omega)
  have hle : (generateRegs^[j] r).sessionCounter.toNat ≤ 0xFF := by omega
  obtain ⟨hpid, haes, hregs⟩ := generateRegs_iterate_frame (r := r) (by omega) j
  rw [generateResponse_of_le hle]
  refine ⟨_, generateFields (generateRegs^[j] r) g.1 g.2, rfl, rfl, fun v => ?_, ?_, ?_⟩
  · rw [hpid, haes]
    exact reply_tokParse_formatOtp ..
  · rw [generateFields_sessionCounter_toNat hle, hcounter, hsession]
  · rw [← husage, ← hregs]
    rfl

/-- At the ceiling a session stays where it is. -/
theorem generateRegs_iterate_of_gt {r : DeviceRegs} (h : 0xFF < r.sessionCounter.toNat) (j : Nat) :
    generateRegs^[j] r = r := Function.iterate_fixed (generateRegs_of_gt h) j

theorem generateResponses_of_gt {r : DeviceRegs} (h : 0xFF < r.sessionCounter.toNat) (gs : List Generation) :
    generateResponses r gs = List.replicate gs.length ⟨0x0003, .empty, []⟩ := by
  rw [generateResponses]
  simp only [generateRegs_iterate_of_gt h, generateResponse_of_gt h]
  exact List.eq_replicate_iff.mpr ⟨by simp, by simp⟩

/-- Settles O51: the counter reaches 0x100 after `256 - n` generations, and there a generation is an error. -/
theorem overflowAtTheSessionCeiling : Obligations.OverflowAtTheSessionCeiling := by
  intro pid i6 k u ts n s₀ s gs more rest hexec hok hlen
  obtain ⟨r, t, -, ⟨hsession, hn⟩, hrun, ht, hpending⟩ := run_session hexec hok gs (more.map generateEvent ++ rest)
  have hceiling : 0xFF < (generateRegs^[gs.length] r).sessionCounter.toNat := by
    rw [sessionCounter_generateRegs_iterate (by omega)]
    omega
  obtain ⟨v, hrun', hv, -⟩ := run_generations ht.fsmState ht.dev hpending
  have hregs : v.dev = t.dev := by rw [hv.dev, ht.dev, generateRegs_iterate_of_gt hceiling]
  have hfsm : v.fsmState = t.fsmState := hv.fsmState.trans ht.fsmState.symm
  refine ⟨t, generateResponses r gs, hrun, ht.responses, generateResponses_length r gs, fun response hmem => ?_,
    v, hrun', ?_, hregs, hfsm, ?_⟩
  · obtain ⟨j, hj⟩ := List.mem_iff_getElem?.mp hmem
    obtain ⟨g, hg, rfl⟩ := generateResponses_getElem? hj
    obtain ⟨hlt, -⟩ := List.getElem?_eq_some_iff.mp hg
    have hcounter := sessionCounter_of_room (r := r) (j := j) (by omega)
    rw [generateResponse_of_le (by omega)]
  · rw [hv.responses, generateResponses_of_gt hceiling, List.reverse_replicate]
  · rw [reply_devSave ht.fsmState ht.dev, reply_devSave hv.fsmState (hregs.trans ht.dev), hv.params]

/-- Settles O36: a session that began at 0 has its counter above 0 exactly if it has generated. -/
theorem bumpRulesAgreeAfterAZeroStart : Obligations.BumpRulesAgreeAfterAZeroStart := by
  intro pid i6 k u ts s₀ s gs rest hexec hok
  obtain ⟨r, t, ⟨-, -, -, hclear⟩, ⟨hsession, hn⟩, hrun, hgenerated, -⟩ := run_session hexec hok gs rest
  refine ⟨t, _, hrun, hgenerated.dev, ?_⟩
  cases gs with
  | nil => simp [saveBump, hclear, hsession]
  | cons g gs =>
    have hbump := saveBump_generateRegs_iterate (r := r) (by omega) (Nat.succ_pos gs.length)
    exact ⟨(hbump .flag).trans (hbump .counterGtZero).symm, by simpa using hbump .flag⟩

/-! ## The counter pairs of a chain of sessions -/

/-- The counter pairs of the OTPs that `k` generations emit: one for each value of the session counter below its ceiling
(43_device.md R177, R178). -/
def emittedPairs (r : DeviceRegs) (k : Nat) : List (Nat × Nat) :=
  (List.range' r.sessionCounter.toNat (min k (0x100 - r.sessionCounter.toNat))).map (r.usageCounter.toNat, ·)

theorem emittedPairs_of_gt {r : DeviceRegs} (h : 0xFF < r.sessionCounter.toNat) (k : Nat) : emittedPairs r k = [] := by
  simp [emittedPairs, show 0x100 - r.sessionCounter.toNat = 0 by omega]

theorem emittedPairs_succ {r : DeviceRegs} (h : r.sessionCounter.toNat ≤ 0xFF) (k : Nat) :
    emittedPairs r (k + 1) =
      (r.usageCounter.toNat, r.sessionCounter.toNat) :: emittedPairs (afterGenerate r) k := by
  have hlength : min (k + 1) (0x100 - r.sessionCounter.toNat) =
      min k (0x100 - (r.sessionCounter.toNat + 1)) + 1 := by omega
  rw [emittedPairs, emittedPairs, hlength, List.range'_succ, List.map_cons, afterGenerate_sessionCounter_toNat h,
    afterGenerate_usageCounter]

theorem generatePair_of_gt {s : State} {r : DeviceRegs} (hf : s.fsmState = .created) (hd : s.dev = some r)
    (h : 0xFF < r.sessionCounter.toNat) (key : Bytes16) (g : Generation) :
    generatePair key g s = some ([], s.afterGeneration r g) := by
  simp [generatePair, exec_generation hf hd, State.afterGeneration, generateResponse_of_gt h]

theorem generatePair_of_le {s : State} {r : DeviceRegs} (hf : s.fsmState = .created) (hd : s.dev = some r)
    (h : r.sessionCounter.toNat ≤ 0xFF) (g : Generation) : generatePair r.aesKey g s =
      some ([(r.usageCounter.toNat, r.sessionCounter.toNat)], s.afterGeneration r g) := by
  have hparse := reply_tokParse_formatOtp r.aesKey r.publicId (generateFields r g.1 g.2) (s.afterGeneration r g)
  have hsession := generateFields_sessionCounter_toNat h g
  have husage : (generateFields r g.1 g.2).usageCounter = r.usageCounter := rfl
  have hresponses : (s.afterGeneration r g).responses = generateResponse r g :: s.responses := rfl
  simp [generatePair, exec_generation hf hd, hresponses, generateResponse_of_le h, generatePlaintext, hparse, hsession,
    husage]

/-- Consecutive generations emit the pairs of their session. -/
theorem generatePairs_eq {s : State} {r : DeviceRegs} {key : Bytes16} (hf : s.fsmState = .created)
    (hd : s.dev = some r) (hkey : r.aesKey = key) (gs : List Generation) :
    ∃ t, generatePairs key gs s = some (emittedPairs r gs.length, t) ∧ Generated s r gs t := by
  induction gs generalizing s r with
  | nil => exact ⟨s, by simp [generatePairs, emittedPairs], .nil hf hd⟩
  | cons g gs ih =>
    subst hkey
    obtain hgt | hle := Nat.lt_or_ge 0xFF r.sessionCounter.toNat
    · have hregs := generateRegs_of_gt hgt
      obtain ⟨t, hpairs, hgenerated⟩ := ih (s := s.afterGeneration r g) hf rfl (by rw [hregs])
      refine ⟨t, ?_, hgenerated.cons rfl rfl⟩
      simp [generatePairs, generatePair_of_gt hf hd hgt, hpairs, hregs, emittedPairs_of_gt hgt]
    · have hregs := generateRegs_of_le hle
      obtain ⟨t, hpairs, hgenerated⟩ := ih (s := s.afterGeneration r g) hf rfl (by rw [hregs, afterGenerate_aesKey])
      refine ⟨t, ?_, hgenerated.cons rfl rfl⟩
      simp [generatePairs, generatePair_of_le hf hd hle, hpairs, hregs, emittedPairs_succ hle]

/-- The lexicographic order of counter pairs (43_device.md R181). -/
def PairLt (a b : Nat × Nat) : Prop := a.1 < b.1 ∨ (a.1 = b.1 ∧ a.2 < b.2)

theorem emittedPairs_pairwise (r : DeviceRegs) (k : Nat) : (emittedPairs r k).Pairwise PairLt :=
  List.pairwise_map.mpr <| (List.pairwise_lt_range' (step := 1)).imp fun h => .inr ⟨rfl, h⟩

theorem fst_of_mem_emittedPairs {r : DeviceRegs} {k : Nat} {a : Nat × Nat} (h : a ∈ emittedPairs r k) :
    a.1 = r.usageCounter.toNat ∧ 0 < k := by
  obtain ⟨n, hn, rfl⟩ := List.mem_map.mp h
  refine ⟨rfl, ?_⟩
  obtain ⟨hge, hlt⟩ := List.mem_range'_1.mp hn
  omega

theorem saveBump_toNat_le_one (rule : Config.SaveBumpRule) (r : DeviceRegs) : (saveBump rule r).toNat ≤ 1 := by
  cases rule <;> simp only [saveBump] <;> split <;> decide

/-- The record's counter does not wrap: the register is at most 0x7FFF (43_device.md R175). -/
theorem saveRecord_usageCounter_toNat {p : Config.Params} {r : DeviceRegs} (h : r.usageCounter.toNat ≤ 0x7FFF) :
    (saveRecord p r).usageCounter.toNat = r.usageCounter.toNat + (saveBump p.saveBumpRule r).toNat := by
  have hbump := saveBump_toNat_le_one p.saveBumpRule r
  rw [saveRecord, BitVec.toNat_add]
  omega

/-- The record of a session carries at least the counter it began with, and more than every pair it emitted
(43_device.md R176). -/
theorem saveRecord_generateRegs_iterate {p : Config.Params} {r : DeviceRegs} (husage : r.usageCounter.toNat ≤ 0x7FFF)
    (hsession : r.sessionCounter.toNat ≤ 0xFF) (k : Nat) :
    r.usageCounter.toNat ≤ (saveRecord p (generateRegs^[k] r)).usageCounter.toNat ∧
      ∀ a ∈ emittedPairs r k, a.1 < (saveRecord p (generateRegs^[k] r)).usageCounter.toNat := by
  obtain ⟨-, -, hsame⟩ := generateRegs_iterate_frame hsession k
  rw [saveRecord_usageCounter_toNat (hsame ▸ husage), hsame]
  refine ⟨Nat.le_add_right .., fun a ha => ?_⟩
  obtain ⟨hfst, hk⟩ := fst_of_mem_emittedPairs ha
  rw [hfst, saveBump_generateRegs_iterate hsession hk]
  exact Nat.lt_succ_self _

/-- A load that succeeds starts a session of the record (30_encoding.md R76). -/
theorem loaded_of_devLoad {rec : Record} {ts : Option (BitVec 32)} {n : BitVec 32} {s t : State}
    (h : exec (devLoad rec ts n) s = .next t) (hok : t.status = 0x0000) : ∃ r,
      t.fsmState = .created ∧ t.dev = some r ∧ r.aesKey = rec.aesKey ∧ r.usageCounter = rec.usageCounter ∧
        r.usageCounter.toNat ≤ 0x7FFF ∧ r.sessionCounter.toNat ≤ 0xFF := by
  obtain ⟨pid, key, hv, hf, hd, -⟩ := created_of_devCreate h hok
  obtain ⟨-, -, hu, -, -, -, hkey⟩ := validateCreate_ok_iff.mp hv
  exact ⟨_, hf, hd, Subtype.ext hkey, extractLsb'_zeroExtend _, createdRegs_usageCounter_le.trans hu,
    createdRegs_sessionCounter_le⟩

/-- Every pair of a session that the host has completed carries the counter of the record it loaded, below that of the
record it then holds. -/
theorem sessionPairs_next {plan : SessionPlan} {rec saved : Record} {s t : State} {pairs : List (Nat × Nat)}
    (h : sessionPairs plan rec s = some (pairs, saved, t)) :
    pairs.Pairwise PairLt ∧ (∀ a ∈ pairs, a.1 = rec.usageCounter.toNat ∧ a.1 < saved.usageCounter.toNat) ∧
      rec.usageCounter.toNat ≤ saved.usageCounter.toNat := by
  obtain ⟨u, hload, -⟩ := exec_hasEffect (devLoad rec plan.timestamp plan.sessionCounter)
    { s with ports := plan.answers }
  simp only [sessionPairs, hload] at h
  obtain ⟨hok, h⟩ := Option.ite_none_right_eq_some.mp h
  obtain ⟨r, hf, hd, hkey, hregs, husage, hsession⟩ := loaded_of_devLoad hload hok
  obtain ⟨v, hpairs, hv⟩ := generatePairs_eq hf hd hkey plan.generations
  simp only [hpairs, Option.bind_eq_bind, Option.bind_some, exec_devSave_created hv.fsmState hv.dev] at h
  split at h
  · next hskip =>
    obtain ⟨hempty, -⟩ := Bool.and_eq_true_iff.mp hskip
    cases h
    simp [List.isEmpty_iff.mp hempty]
  · cases h
    obtain ⟨hge, hlt⟩ := saveRecord_generateRegs_iterate (p := v.params) husage hsession plan.generations.length
    exact hregs ▸ ⟨emittedPairs_pairwise .., fun a ha => ⟨(fst_of_mem_emittedPairs ha).1, hlt a ha⟩, hge⟩

/-- The pairs of a chain increase from the counter of the record it begins with. -/
theorem chainPairs_increase {plans : List SessionPlan} {rec : Record} {s : State} {pairs : List (Nat × Nat)}
    (h : chainPairs plans rec s = some pairs) :
    pairs.Pairwise PairLt ∧ ∀ a ∈ pairs, rec.usageCounter.toNat ≤ a.1 := by
  induction plans generalizing rec s pairs with
  | nil =>
    cases h
    simp
  | cons plan plans ih =>
    simp only [chainPairs, Option.bind_eq_bind, Option.bind_eq_some_iff] at h
    obtain ⟨⟨session, saved, t⟩, hsession, later, hlater, hpairs⟩ := h
    cases hpairs
    obtain ⟨hpairwise, hfst, hle⟩ := sessionPairs_next hsession
    obtain ⟨hpairwise', hge⟩ := ih hlater
    refine ⟨List.pairwise_append.mpr ⟨hpairwise, hpairwise', fun a ha b hb => .inl ?_⟩, fun a ha => ?_⟩
    · exact (hfst a ha).2.trans_le (hge b hb)
    · obtain ha | ha := List.mem_append.mp ha
      · exact (hfst a ha).1.ge
      · exact hle.trans (hge a ha)

/-- Settles O52: within a session the session counter goes up, and from a session that emitted an OTP to the next the
usage counter does. -/
theorem counterPairsIncreaseAcrossSessions : Obligations.CounterPairsIncreaseAcrossSessions :=
  fun _ _ _ _ h => (chainPairs_increase h).1

end Sys2Proof.Machine

/-! PROOFS, 60_exceptions.md: what an error leaves unchanged, which ports a command calls, and what a reply tells of the
secrets. -/

namespace Sys2Proof.Machine

/-! ## Errors -/

/-- Of a command's effects only the error has a status other than 0x0000 (60_exceptions.md R201). -/
theorem CommandEffect.eq_of_status_ne {i : Instr} {s t : State} (h : CommandEffect s i t) (hne : t.status ≠ 0x0000) :
    ∃ calls : List PortCall, t = s.respond ⟨t.status, .empty, calls⟩ := by
  cases h with
  | error he => exact ⟨_, rfl⟩
  | codec hi => exact absurd rfl hne
  | create hv => exact absurd rfl hne
  | generate hf hd hn => exact absurd rfl hne
  | save hf hd => exact absurd rfl hne

/-- Settles O47: an illegal word and the error of a command end in `State.respond` on the state as it was. -/
theorem errorsLeaveNothingBehind : Obligations.ErrorsLeaveNothingBehind := by
  rintro s t (hillegal | ⟨i, hexec⟩) hne
  · obtain rfl := Host.Outcome.next.inj ((illegalCommand_eq s).symm.trans hillegal)
    exact ⟨[], rfl⟩
  · exact (exec_next hexec).eq_of_status_ne hne

/-! ## Port calls -/

/-- An outcome that answers with one response, whose status and port calls are in the given relation. -/
def CallsPorts (rel : BitVec 16 → List PortCall → Prop) (s : State) (o : Host.Outcome State Fault Refusal) : Prop :=
  ∃ (u : State) (r : Response), o = .next (u.respond r) ∧ u.responses = s.responses ∧ rel r.status r.calls

/-- An outcome that answers and calls no port. -/
def CallsNoPort (s : State) (o : Host.Outcome State Fault Refusal) : Prop :=
  CallsPorts (fun _ calls => calls = []) s o

section Calls

variable {rel : BitVec 16 → List PortCall → Prop} {s : State}

/-- The response of an outcome that answered is in the relation. -/
theorem CallsPorts.apply {o : Host.Outcome State Fault Refusal} {t : State} {r : Response} (h : CallsPorts rel s o)
    (ht : o = .next t) (hr : t.responses = r :: s.responses) : rel t.status r.calls := by
  obtain ⟨u, r', ho, hu, hrel⟩ := h
  obtain rfl := Host.Outcome.next.inj (ho.symm.trans ht)
  obtain ⟨rfl, -⟩ := List.cons.inj hr
  exact hrel

theorem callsPorts_complete {u : State} {calls : List PortCall} (h : rel 0x0000 calls) (results : Results)
    (hu : u.responses = s.responses := by rfl) : CallsPorts rel s (complete results calls u) :=
  ⟨u, _, complete_eq .., hu, h⟩

theorem callsPorts_raiseError {e : CommandError} {calls : List PortCall} (h : rel (errorStatus e) calls) :
    CallsPorts rel s (raiseError e calls s) :=
  ⟨s, _, raiseError_eq .., rfl, h⟩

/-- Asking for loaded registers calls no port itself: what follows with them does, or StateError without any call. -/
theorem callsPorts_withInstance {k : DeviceRegs → Host.Outcome State Fault Refusal} (h : rel 0x0004 [])
    (hk : ∀ r, s.dev = some r → CallsPorts rel s (k r)) : CallsPorts rel s (withInstance s k) := by
  obtain ⟨r, -, hd, he⟩ | ⟨-, he⟩ := withInstance_cases s k
  · exact he ▸ hk r hd
  · exact he ▸ ⟨s, _, rfl, rfl, h⟩

end Calls

theorem callsNoPort_complete (results : Results) (s : State) : CallsNoPort s (complete results [] s) :=
  callsPorts_complete rfl results

theorem execMhxDec_callsNoPort (text : Str) (s : State) : CallsNoPort s (execMhxDec text s) := by
  unfold execMhxDec
  split
  · exact callsPorts_raiseError rfl
  split
  · exact callsPorts_raiseError rfl
  · exact callsNoPort_complete ..

theorem execTokPack_callsPorts (pid : Bytes6) (u : BitVec 16) (t : BitVec 24) (n : BitVec 8)
    (random : Option (BitVec 16)) (s : State) :
    CallsPorts (fun _ calls => calls = if random.isSome then [] else [.randomBits 16]) s
      (execTokPack pid u t n random s) :=
  callsPorts_complete (randomFieldCalls_eq random) _

theorem execTokUnpack_callsNoPort (pt : Bytes16) (s : State) : CallsNoPort s (execTokUnpack pt s) := by
  unfold execTokUnpack
  split
  · exact callsPorts_raiseError rfl
  · exact callsNoPort_complete ..

theorem execTokEncrypt_callsPorts (pt key : Bytes16) (s : State) :
    CallsPorts (fun _ calls => calls = [.aesEnc key pt]) s (execTokEncrypt pt key s) :=
  callsPorts_complete rfl _

theorem execDevSave_callsNoPort (s : State) : CallsNoPort s (execDevSave s) :=
  callsPorts_withInstance rfl fun _ _ => callsPorts_complete rfl _

/-- `AES_DEC` is called once the 32 characters have given a block, whatever the checksum then says
(42_token.md R146). -/
theorem exec_tokParse_callsPorts (key : Bytes16) (otp : Str) (s : State) :
    CallsPorts (fun status calls => calls = [] ∧ (status = 0x0481 ∨ status = 0x0281) ∨
      ∃ ct, mhxBlock (otp.drop (otp.length - 32)) = some ct ∧ calls = [.aesDec key ct]) s
      (exec (.tokParse key otp) s) := by
  obtain hshort | hlong := Nat.lt_or_ge otp.length 32
  · exact ⟨s, _, exec_tokParse_of_short hshort key s, rfl, .inl ⟨rfl, .inl rfl⟩⟩
  · obtain ⟨pub, enc, henc, rfl⟩ := exists_append_of_le_length hlong
    obtain ⟨r, hend, hexec⟩ := exists_parseEnd henc key pub
    rw [drop_append_block pub henc]
    refine ⟨s, r, hexec s, rfl, ?_⟩
    cases hend with
    | notModhex h => exact .inl ⟨rfl, .inr rfl⟩
    | checksum hblock h => exact .inr ⟨_, hblock, rfl⟩
    | parsed hblock h => exact .inr ⟨_, hblock, rfl⟩

theorem execDevCreate_callsPorts (publicId : Str) (privateId aesKey : Bytes) (u : BitVec 32) (ts : Option (BitVec 32))
    (n : BitVec 32) (s : State) :
    CallsPorts (fun status calls => calls = if status = 0x0000 then
      (if ts.isSome then [] else [.randomRange 0 (2 ^ 24 - s.params.tsMargin)]) ++ [.clockNow] else []) s
      (execDevCreate publicId privateId aesKey u ts n s) := by
  rw [← seedCalls_eq]
  unfold execDevCreate
  split
  · next e _ => exact callsPorts_raiseError (if_neg (errorStatus_ne_zero e)).symm
  · exact callsPorts_complete rfl _

theorem execDevGenerate_callsPorts (random : Option (BitVec 16)) (s : State) :
    CallsPorts (fun status calls => if status = 0x0000 then
      ∃ d, s.dev = some d ∧ calls = [.clockElapsed8 d.poweron] ++
        (if random.isSome then [] else [.randomBits 16]) ++ [.aesEnc d.aesKey (pack (generateFields d random s.ports))]
      else calls = []) s (execDevGenerate random s) := by
  rw [← randomFieldCalls_eq]
  refine callsPorts_withInstance rfl fun d hd => ?_
  split
  · exact callsPorts_raiseError (by simp)
  · exact callsPorts_complete ⟨d, hd, rfl⟩ _

/-- Settles O48; the last arm is the six commands that succeed always and without any port. -/
theorem portCallsByCommand : Obligations.PortCallsByCommand := by
  intro i s t r h hr
  cases i with
  | mhxDec text => exact (execMhxDec_callsNoPort text s).apply h hr
  | tokPack pid u ts n random => exact (execTokPack_callsPorts pid u ts n random s).apply h hr
  | tokUnpack pt => exact (execTokUnpack_callsNoPort pt s).apply h hr
  | tokEncrypt pt key => exact (execTokEncrypt_callsPorts pt key s).apply h hr
  | tokParse key otp => exact (exec_tokParse_callsPorts key otp s).apply h hr
  | devCreate pid i6 k u ts n => exact (execDevCreate_callsPorts pid i6 k u ts n s).apply h hr
  | devGenerate random => exact (execDevGenerate_callsPorts random s).apply h hr
  | devSave => exact (execDevSave_callsNoPort s).apply h hr
  | _ => exact (callsNoPort_complete _ s).apply h hr

/-! ## The secrets -/

/-- The reply shows the last response only, not the registers written before it. -/
theorem reply_of_respond {i : Instr} {s u : State} {r : Response} (h : exec i s = .next (u.respond r)) :
    reply i s = some (r.status, r.results) := by
  simp [reply, h]

/-- A codec command's reply depends on the port answers alone. -/
theorem reply_codec_congr {i : Instr} (hi : codec i = true) {s s' : State} (hports : s'.ports = s.ports) :
    reply i s' = reply i s := by
  obtain ⟨response, hresponse⟩ := codecCommandsTouchNoDeviceRegister i hi
  have hreply (v : State) : reply i v = some ((response v.ports).status, (response v.ports).results) :=
    reply_of_exec (hresponse v)
  rw [hreply, hreply, hports]

/-- `DEV_CREATE` replies with the outcome of its checks, which read the operands and the parameters alone. -/
theorem reply_devCreate (publicId : Str) (privateId aesKey : Bytes) (u : BitVec 32) (ts : Option (BitVec 32))
    (n : BitVec 32) (s : State) : reply (.devCreate publicId privateId aesKey u ts n) s =
      some (checkStatus (validateCreate s.params publicId privateId aesKey u ts n), .empty) := by
  rcases hv : validateCreate s.params publicId privateId aesKey u ts n with e | ⟨pid, key⟩
  · exact reply_of_respond (exec_devCreate_of_error hv)
  · exact reply_of_respond (exec_devCreate_of_valid hv)

theorem reply_devGenerate_stateError {s : State} (hf : s.fsmState ≠ .created) (random : Option (BitVec 16)) :
    reply (.devGenerate random) s = some (0x0004, .empty) :=
  reply_of_respond (exec_devGenerate_stateError hf random)

theorem reply_devGenerate_overflow {s : State} {r : DeviceRegs} (hf : s.fsmState = .created) (hd : s.dev = some r)
    (hn : 0xFF < r.sessionCounter.toNat) (random : Option (BitVec 16)) :
    reply (.devGenerate random) s = some (0x0003, .empty) :=
  reply_of_respond (exec_devGenerate_overflow hf hd hn random)

theorem reply_devGenerate_otp {s : State} {r : DeviceRegs} (hf : s.fsmState = .created) (hd : s.dev = some r)
    (hn : r.sessionCounter.toNat ≤ 0xFF) (random : Option (BitVec 16)) :
    reply (.devGenerate random) s = some (0x0000, .otp
      (r.publicId ++ mhxEncode (aesEnc r.aesKey (pack (generateFields r random s.ports))).val)) := by
  rw [reply_of_respond (exec_devGenerate_created hf hd random), generateResponse_of_le hn]
  rfl

/-- Settles O49: the codec commands read no register, the creation's checks none but the parameters, and a generation
reads the secrets only into the plaintext and the key of the cipher. -/
theorem secretsLeaveOnlyInTheRecord : Obligations.SecretsLeaveOnlyInTheRecord := by
  intro s r pid key hd
  let s' := s.withRegs { r with privateId := pid, aesKey := key }
  refine ⟨fun i hsave hgenerate => ?_, fun random => ⟨fun herror => ?_, fun hf hn =>
    ⟨reply_devGenerate_otp hf hd hn random, reply_devGenerate_otp (s := s') hf rfl hn random⟩⟩⟩
  · cases i with
    | devCreate publicId privateId aesKey u ts n => rw [reply_devCreate, reply_devCreate]
    | devGenerate random => exact absurd rfl hgenerate
    | devSave => exact absurd rfl hsave
    | _ => exact reply_codec_congr rfl rfl
  · by_cases hf : s.fsmState = .created
    · have hn : 0xFF < r.sessionCounter.toNat := herror.resolve_left (not_not_intro hf)
      exact (reply_devGenerate_overflow (s := s') hf rfl hn random).trans
        (reply_devGenerate_overflow hf hd hn random).symm
    · exact (reply_devGenerate_stateError (s := s') hf random).trans (reply_devGenerate_stateError hf random).symm

end Sys2Proof.Machine

/-! PROOFS, 70_reset_and_hazards.md: the host events outside commands, the state after power-on reset, and the usage
counter's ceiling. -/

namespace Sys2Proof.Machine

/-! ## Host events outside commands -/

section Step

variable {s : State}

theorem step_of_no_event (h : s.pending = []) : step s = .next s := by
  simp [step, h]

theorem step_of_powerOn {rest : List HostEvent} (h : s.pending = .powerOn :: rest) :
    step s = .next (powerOnReset (s.dequeue rest)) := by
  simp [step, h]

end Step

/-- Settles O9: the block waits, and the power-on event is the reset of the state it was taken in. -/
theorem hostEventsOutsideCommands : Obligations.HostEventsOutsideCommands :=
  ⟨fun _ hp => step_of_no_event hp, fun _ _ hp => step_of_powerOn hp⟩

/-! ## Power-on reset -/

theorem reply_devSave_stateError {s : State} (hf : s.fsmState ≠ .created) :
    reply .devSave s = some (0x0004, .empty) :=
  reply_of_respond (exec_devSave_stateError hf)

/-- Outside `CREATED` a reply depends on the parameters and the port answers alone: `DEV_GENERATE` and `DEV_SAVE` stop at
the state check, and no other command reads a register (70_reset_and_hazards.md R230). -/
theorem reply_congr_of_not_created {s s' : State} (hf : s.fsmState ≠ .created) (hf' : s'.fsmState ≠ .created)
    (hparams : s'.params = s.params) (hports : s'.ports = s.ports) (i : Instr) : reply i s' = reply i s := by
  cases i with
  | devCreate publicId privateId aesKey u ts n => rw [reply_devCreate, reply_devCreate, hparams]
  | devGenerate random => rw [reply_devGenerate_stateError hf, reply_devGenerate_stateError hf']
  | devSave => rw [reply_devSave_stateError hf, reply_devSave_stateError hf']
  | _ => exact reply_codec_congr rfl hports

/-- Settles O10: the reset state is fixed, and in `UNINIT`, which is not `CREATED`, no reply reads the registers. -/
theorem powerOnResetState : Obligations.PowerOnResetState := by
  obtain ⟨hanswers, -⟩ := noCommandReadsAValuelessRegister
  refine ⟨rfl, rfl, rfl, rfl, step_of_no_event rfl, fun i s d hf => ⟨?_, hanswers i s⟩⟩
  have hstate : s.fsmState ≠ .created := by simp [hf]
  exact reply_congr_of_not_created (s' := { s with dev := d }) hstate hstate rfl rfl i

/-! ## The usage counter's ceiling -/

/-- A session that generated an OTP and has a positive session counter, where the rule asks for one, bumps the usage
counter (43_device.md R176). -/
theorem saveBump_eq_one {rule : Config.SaveBumpRule} {r : DeviceRegs} (hgenerated : r.generated = true)
    (hcounter : rule = .counterGtZero → 0 < r.sessionCounter.toNat) : saveBump rule r = 1 := by
  cases rule with
  | flag => simp [saveBump, hgenerated]
  | counterGtZero => exact if_pos (hcounter rfl)

/-- Valid identity registers pass the first five checks of 43_device.md R171; the sixth fails above `USAGE_MAX`,
whatever the two operands checked after it. -/
theorem validateCreate_usageCounter_range {p : Config.Params} {r : DeviceRegs} (hr : r.Ok p) {u : BitVec 32}
    (hu : 0x7FFF < u.toNat) (ts : Option (BitVec 32)) (n : BitVec 32) :
    validateCreate p r.publicId r.privateId.val r.aesKey.val u ts n = .error (.validation .usageCounter .range) := by
  obtain ⟨heven, hval⟩ : oddLength r.publicId = false ∧ hasForeignByte r.publicId = false := by
    simpa [isModhex] using hr.publicId
  simp [validateCreate, heven, hval, hr.publicIdLength, hu]

/-- Settles O53: the save adds the bump to 0x7FFF, the range check refuses the 0x8000 it gives, and 0x7FFF itself passes
every check. -/
theorem usageCounterCeiling : Obligations.UsageCounterCeiling := by
  intro s r hinv hf hd husage hgenerated hcounter
  have hr := hinv.regs r hd
  have hrecord : (saveRecord s.params r).usageCounter = 0x8000 := by
    simp [saveRecord, husage, saveBump_eq_one hgenerated hcounter]
  have hrange : 0x7FFF < ((saveRecord s.params r).usageCounter.zeroExtend 32).toNat := by
    rw [hrecord]
    decide
  refine ⟨saveRecord s.params r, reply_devSave hf hd, hrecord, fun u ts n hu => ⟨?_, ?_⟩⟩
  · have hinvalid := validateCreate_usageCounter_range (hu ▸ hr) hrange ts n
    exact reply_of_respond (exec_devCreate_of_error hinvalid)
  · have hvalid := validateCreate_devLoad (hu ▸ hr) (u := 0x7FFF) (by decide)
    exact reply_of_respond (exec_devCreate_of_valid hvalid)

end Sys2Proof.Machine
